-- ==== Sys2Proof/Word.lean ====
section
/-! DEFINITION. The value types of the operands and results of spec/30_encoding.md rule R61. -/

namespace Sys2Proof

/-- A byte, `u8` (00_scope.md §5). -/
abbrev Byte := BitVec 8

/-- `u16`. -/
abbrev U16 := BitVec 16

/-- `u32`. -/
abbrev U32 := BitVec 32

/-- `u64`. -/
abbrev U64 := BitVec 64

/-- `f32`, an IEEE 754 binary32 value, held as its bit pattern `bits32(x)` (00_scope.md §5).
The raw-float commands pass the pattern through unchanged (R189), so the pattern is the value. -/
abbrev F32 := BitVec 32

end Sys2Proof
end

