-- ==== Sys2Proof/Syntax.lean ====
section
/-! DEFINITION. The operation request and the 45 operations (30_encoding.md rules R60 to R64). -/

namespace Sys2Proof

/-- A `ParamValue` (rule R64). The numbers are mathematical integers: a value outside its tag's range can
be written in a request, and `EXT_PARAM_WRITE` answers it with `ERR_RANGE` (rule R208). -/
inductive ParamValue where
  | u8 (n : Int)
  | u16 (n : Int)
  | u32 (n : Int)
  | i16 (n : Int)
  | f32 (x : F32)
  /-- `String(s)`, held as the bytes of its text; no rule reads them (notes/assumptions/16.md). -/
  | string (s : List Byte)
  deriving DecidableEq, Repr

/-- The operand types of rule R61's operands column. -/
inductive OperandType where
  | u8
  | u16
  | u32
  | f32
  | bool
  | bytes
  | param
  deriving DecidableEq, Repr

/-- One typed operand value of a request (rules R60, R63): an integer carries exactly its type's width, a
byte sequence its own length. -/
inductive Operand where
  | u8 (v : Byte)
  | u16 (v : U16)
  | u32 (v : U32)
  | f32 (x : F32)
  | bool (b : Bool)
  | bytes (bs : List Byte)
  | param (v : ParamValue)
  deriving DecidableEq, Repr

/-- An operation request (rule R60): the 8-bit operation code and the record of operand values. -/
structure Request where
  op : Byte
  operands : List Operand
  deriving DecidableEq, Repr

/-- The operations of rule R61, with their operands in the table's order. -/
inductive Instr where
  -- 41_crc.md
  | crc16 (seed : U16) (bytes : List Byte)
  | crc16Byte (crc : U16) (b : Byte)
  -- 42_framer.md
  | frmFeed (b : Byte)
  | frmFeedBatch (bytes : List Byte)
  | frmEncode (payload : List Byte)
  | frmReset
  -- 43_quantizer.md
  | qEncode (x min max : F32) (bits : Byte)
  | qDecode (u : U32) (min max : F32) (bits : Byte)
  -- 44_can.md
  | canBuildStd (id : U32) (data : List Byte)
  | canBuildExt (id : U32) (data : List Byte)
  | canParse (frame : List Byte)
  | canClassify (info : Byte)
  | idMakeStd (mode address : Byte)
  | idMakeExt (commandType : Byte) (aux16 : U16) (target : Byte)
  | idParseExt (id : U32)
  -- 45_std_dialect.md
  | stdEnable
  | stdStop
  | stdSetZero
  | stdFault (code : Byte)
  | stdSetMode (m : Byte)
  | stdSetMotorAddr (id : Byte)
  | stdSetProtocol (p : Byte)
  | stdSetMasterAddr (id : Byte)
  | stdPosition (targetPos maxSpeed : F32)
  | stdSpeed (targetSpeed currentLimit : F32)
  | stdFbDecode (data : List Byte)
  -- 46_ext_dialect.md, builders
  | extGetDeviceId (requester target : Byte)
  | extEnable (requester target : Byte)
  | extStop (requester target : Byte) (clearFault : Bool)
  | extSetZero (requester target : Byte)
  | extSetAddr (requester target newId : Byte)
  | extParamRead (requester target : Byte) (index : U16)
  | extParamWrite (requester target : Byte) (index : U16) (value : ParamValue)
  | extFaultReq (requester target : Byte)
  | extSaveParams (requester target : Byte)
  | extSetBaud (requester target code : Byte)
  | extSetActiveReport (requester target flag : Byte)
  | extSetProtocol (requester target code : Byte)
  | extReadVersion (requester target : Byte)
  -- 46_ext_dialect.md, decoders
  | extClassify (id : U32)
  | extDecDeviceId (id : U32) (data : List Byte)
  | extDecFeedback (id : U32) (data : List Byte)
  | extDecParamRead (id : U32) (data : List Byte)
  | extDecFault (data : List Byte)
  | faultMatch (word : U32)
  deriving DecidableEq, Repr

end Sys2Proof
end

