-- ==== Sys2Proof/Decode.lean ====
section
/-! DEFINITION. Decoding a request and its inverse (30_encoding.md rules R60 to R64): the opcode table, the
operand records, the decoder and the encoder. -/

namespace Sys2Proof

/-- What a request decodes to. -/
inductive Decoded where
  /-- An operation of rule R61 with its operands. -/
  | instr (i : Instr)
  /-- The code is not in the table (rules R61, R62): the request will end with `ERR_ILLEGAL_OP`. -/
  | unassignedOp (op : Byte)
  /-- The code is assigned, and the record's types are not those its rule names (rule R63). -/
  | operandTypes (op : Byte)
  deriving DecidableEq, Repr

/-! Readers of the operand records, one per record shape of rule R61's operands column. -/

def readU16Bytes (f : U16 → List Byte → Instr) : List Operand → Option Instr
  | [.u16 a, .bytes b] => some (f a b)
  | _ => none

def readU16U8 (f : U16 → Byte → Instr) : List Operand → Option Instr
  | [.u16 a, .u8 b] => some (f a b)
  | _ => none

def readU8 (f : Byte → Instr) : List Operand → Option Instr
  | [.u8 a] => some (f a)
  | _ => none

def readBytes (f : List Byte → Instr) : List Operand → Option Instr
  | [.bytes a] => some (f a)
  | _ => none

def readNone (f : Instr) : List Operand → Option Instr
  | [] => some f
  | _ => none

def readF32F32F32U8 (f : F32 → F32 → F32 → Byte → Instr) : List Operand → Option Instr
  | [.f32 a, .f32 b, .f32 c, .u8 d] => some (f a b c d)
  | _ => none

def readU32F32F32U8 (f : U32 → F32 → F32 → Byte → Instr) : List Operand → Option Instr
  | [.u32 a, .f32 b, .f32 c, .u8 d] => some (f a b c d)
  | _ => none

def readU32Bytes (f : U32 → List Byte → Instr) : List Operand → Option Instr
  | [.u32 a, .bytes b] => some (f a b)
  | _ => none

def readU8U8 (f : Byte → Byte → Instr) : List Operand → Option Instr
  | [.u8 a, .u8 b] => some (f a b)
  | _ => none

def readU8U16U8 (f : Byte → U16 → Byte → Instr) : List Operand → Option Instr
  | [.u8 a, .u16 b, .u8 c] => some (f a b c)
  | _ => none

def readU32 (f : U32 → Instr) : List Operand → Option Instr
  | [.u32 a] => some (f a)
  | _ => none

def readF32F32 (f : F32 → F32 → Instr) : List Operand → Option Instr
  | [.f32 a, .f32 b] => some (f a b)
  | _ => none

def readU8U8Bool (f : Byte → Byte → Bool → Instr) : List Operand → Option Instr
  | [.u8 a, .u8 b, .bool c] => some (f a b c)
  | _ => none

def readU8U8U8 (f : Byte → Byte → Byte → Instr) : List Operand → Option Instr
  | [.u8 a, .u8 b, .u8 c] => some (f a b c)
  | _ => none

def readU8U8U16 (f : Byte → Byte → U16 → Instr) : List Operand → Option Instr
  | [.u8 a, .u8 b, .u16 c] => some (f a b c)
  | _ => none

def readU8U8U16Param (f : Byte → Byte → U16 → ParamValue → Instr) : List Operand → Option Instr
  | [.u8 a, .u8 b, .u16 c, .param d] => some (f a b c d)
  | _ => none

/-- One row of the opcode table of rule R61. -/
structure OpRow where
  code : Byte
  mnemonic : String
  operands : List OperandType
  read : List Operand → Option Instr

/-- The opcode table of rule R61. -/
def opcodeTable : List OpRow := [
  ⟨0x01, "CRC16", [.u16, .bytes], readU16Bytes .crc16⟩,
  ⟨0x02, "CRC16_BYTE", [.u16, .u8], readU16U8 .crc16Byte⟩,
  ⟨0x10, "FRM_FEED", [.u8], readU8 .frmFeed⟩,
  ⟨0x11, "FRM_FEED_BATCH", [.bytes], readBytes .frmFeedBatch⟩,
  ⟨0x12, "FRM_ENCODE", [.bytes], readBytes .frmEncode⟩,
  ⟨0x13, "FRM_RESET", [], readNone .frmReset⟩,
  ⟨0x20, "Q_ENCODE", [.f32, .f32, .f32, .u8], readF32F32F32U8 .qEncode⟩,
  ⟨0x21, "Q_DECODE", [.u32, .f32, .f32, .u8], readU32F32F32U8 .qDecode⟩,
  ⟨0x30, "CAN_BUILD_STD", [.u32, .bytes], readU32Bytes .canBuildStd⟩,
  ⟨0x31, "CAN_BUILD_EXT", [.u32, .bytes], readU32Bytes .canBuildExt⟩,
  ⟨0x32, "CAN_PARSE", [.bytes], readBytes .canParse⟩,
  ⟨0x33, "CAN_CLASSIFY", [.u8], readU8 .canClassify⟩,
  ⟨0x34, "ID_MAKE_STD", [.u8, .u8], readU8U8 .idMakeStd⟩,
  ⟨0x35, "ID_MAKE_EXT", [.u8, .u16, .u8], readU8U16U8 .idMakeExt⟩,
  ⟨0x36, "ID_PARSE_EXT", [.u32], readU32 .idParseExt⟩,
  ⟨0x40, "STD_ENABLE", [], readNone .stdEnable⟩,
  ⟨0x41, "STD_STOP", [], readNone .stdStop⟩,
  ⟨0x42, "STD_SET_ZERO", [], readNone .stdSetZero⟩,
  ⟨0x43, "STD_FAULT", [.u8], readU8 .stdFault⟩,
  ⟨0x44, "STD_SET_MODE", [.u8], readU8 .stdSetMode⟩,
  ⟨0x45, "STD_SET_MOTOR_ADDR", [.u8], readU8 .stdSetMotorAddr⟩,
  ⟨0x46, "STD_SET_PROTOCOL", [.u8], readU8 .stdSetProtocol⟩,
  ⟨0x47, "STD_SET_MASTER_ADDR", [.u8], readU8 .stdSetMasterAddr⟩,
  ⟨0x48, "STD_POSITION", [.f32, .f32], readF32F32 .stdPosition⟩,
  ⟨0x49, "STD_SPEED", [.f32, .f32], readF32F32 .stdSpeed⟩,
  ⟨0x4A, "STD_FB_DECODE", [.bytes], readBytes .stdFbDecode⟩,
  ⟨0x50, "EXT_GET_DEVICE_ID", [.u8, .u8], readU8U8 .extGetDeviceId⟩,
  ⟨0x51, "EXT_ENABLE", [.u8, .u8], readU8U8 .extEnable⟩,
  ⟨0x52, "EXT_STOP", [.u8, .u8, .bool], readU8U8Bool .extStop⟩,
  ⟨0x53, "EXT_SET_ZERO", [.u8, .u8], readU8U8 .extSetZero⟩,
  ⟨0x54, "EXT_SET_ADDR", [.u8, .u8, .u8], readU8U8U8 .extSetAddr⟩,
  ⟨0x55, "EXT_PARAM_READ", [.u8, .u8, .u16], readU8U8U16 .extParamRead⟩,
  ⟨0x56, "EXT_PARAM_WRITE", [.u8, .u8, .u16, .param], readU8U8U16Param .extParamWrite⟩,
  ⟨0x57, "EXT_FAULT_REQ", [.u8, .u8], readU8U8 .extFaultReq⟩,
  ⟨0x58, "EXT_SAVE_PARAMS", [.u8, .u8], readU8U8 .extSaveParams⟩,
  ⟨0x59, "EXT_SET_BAUD", [.u8, .u8, .u8], readU8U8U8 .extSetBaud⟩,
  ⟨0x5A, "EXT_SET_ACTIVE_REPORT", [.u8, .u8, .u8], readU8U8U8 .extSetActiveReport⟩,
  ⟨0x5B, "EXT_SET_PROTOCOL", [.u8, .u8, .u8], readU8U8U8 .extSetProtocol⟩,
  ⟨0x5C, "EXT_READ_VERSION", [.u8, .u8], readU8U8 .extReadVersion⟩,
  ⟨0x60, "EXT_CLASSIFY", [.u32], readU32 .extClassify⟩,
  ⟨0x61, "EXT_DEC_DEVICE_ID", [.u32, .bytes], readU32Bytes .extDecDeviceId⟩,
  ⟨0x62, "EXT_DEC_FEEDBACK", [.u32, .bytes], readU32Bytes .extDecFeedback⟩,
  ⟨0x63, "EXT_DEC_PARAM_READ", [.u32, .bytes], readU32Bytes .extDecParamRead⟩,
  ⟨0x64, "EXT_DEC_FAULT", [.bytes], readBytes .extDecFault⟩,
  ⟨0x65, "FAULT_MATCH", [.u32], readU32 .faultMatch⟩]

/-- The table's row for a code, if the code is assigned. -/
def opRow (op : Byte) : Option OpRow :=
  opcodeTable.find? fun row => row.code == op

/-- The decoder: the code is looked at first (rule R242), then the operand types (rule R63). -/
def decode (r : Request) : Decoded :=
  match opRow r.op with
  | none => .unassignedOp r.op
  | some row =>
    match row.read r.operands with
    | none => .operandTypes r.op
    | some i => .instr i

/-- The request of an operation (rules R60, R61): its code, and its operands in the table's order. -/
def encode : Instr → Request
  | .crc16 a b => ⟨0x01, [.u16 a, .bytes b]⟩
  | .crc16Byte a b => ⟨0x02, [.u16 a, .u8 b]⟩
  | .frmFeed a => ⟨0x10, [.u8 a]⟩
  | .frmFeedBatch a => ⟨0x11, [.bytes a]⟩
  | .frmEncode a => ⟨0x12, [.bytes a]⟩
  | .frmReset => ⟨0x13, []⟩
  | .qEncode a b c d => ⟨0x20, [.f32 a, .f32 b, .f32 c, .u8 d]⟩
  | .qDecode a b c d => ⟨0x21, [.u32 a, .f32 b, .f32 c, .u8 d]⟩
  | .canBuildStd a b => ⟨0x30, [.u32 a, .bytes b]⟩
  | .canBuildExt a b => ⟨0x31, [.u32 a, .bytes b]⟩
  | .canParse a => ⟨0x32, [.bytes a]⟩
  | .canClassify a => ⟨0x33, [.u8 a]⟩
  | .idMakeStd a b => ⟨0x34, [.u8 a, .u8 b]⟩
  | .idMakeExt a b c => ⟨0x35, [.u8 a, .u16 b, .u8 c]⟩
  | .idParseExt a => ⟨0x36, [.u32 a]⟩
  | .stdEnable => ⟨0x40, []⟩
  | .stdStop => ⟨0x41, []⟩
  | .stdSetZero => ⟨0x42, []⟩
  | .stdFault a => ⟨0x43, [.u8 a]⟩
  | .stdSetMode a => ⟨0x44, [.u8 a]⟩
  | .stdSetMotorAddr a => ⟨0x45, [.u8 a]⟩
  | .stdSetProtocol a => ⟨0x46, [.u8 a]⟩
  | .stdSetMasterAddr a => ⟨0x47, [.u8 a]⟩
  | .stdPosition a b => ⟨0x48, [.f32 a, .f32 b]⟩
  | .stdSpeed a b => ⟨0x49, [.f32 a, .f32 b]⟩
  | .stdFbDecode a => ⟨0x4A, [.bytes a]⟩
  | .extGetDeviceId a b => ⟨0x50, [.u8 a, .u8 b]⟩
  | .extEnable a b => ⟨0x51, [.u8 a, .u8 b]⟩
  | .extStop a b c => ⟨0x52, [.u8 a, .u8 b, .bool c]⟩
  | .extSetZero a b => ⟨0x53, [.u8 a, .u8 b]⟩
  | .extSetAddr a b c => ⟨0x54, [.u8 a, .u8 b, .u8 c]⟩
  | .extParamRead a b c => ⟨0x55, [.u8 a, .u8 b, .u16 c]⟩
  | .extParamWrite a b c d => ⟨0x56, [.u8 a, .u8 b, .u16 c, .param d]⟩
  | .extFaultReq a b => ⟨0x57, [.u8 a, .u8 b]⟩
  | .extSaveParams a b => ⟨0x58, [.u8 a, .u8 b]⟩
  | .extSetBaud a b c => ⟨0x59, [.u8 a, .u8 b, .u8 c]⟩
  | .extSetActiveReport a b c => ⟨0x5A, [.u8 a, .u8 b, .u8 c]⟩
  | .extSetProtocol a b c => ⟨0x5B, [.u8 a, .u8 b, .u8 c]⟩
  | .extReadVersion a b => ⟨0x5C, [.u8 a, .u8 b]⟩
  | .extClassify a => ⟨0x60, [.u32 a]⟩
  | .extDecDeviceId a b => ⟨0x61, [.u32 a, .bytes b]⟩
  | .extDecFeedback a b => ⟨0x62, [.u32 a, .bytes b]⟩
  | .extDecParamRead a b => ⟨0x63, [.u32 a, .bytes b]⟩
  | .extDecFault a => ⟨0x64, [.bytes a]⟩
  | .faultMatch a => ⟨0x65, [.u32 a]⟩

/-- The operand of a type whose bits are all zero: the number 0, the binary32 +0.0, false, the empty
sequence, and the `ParamValue` of tag code 0 (rule R64: `U8`) with value 0 (notes/assumptions/7.md). -/
def OperandType.zero : OperandType → Operand
  | .u8 => .u8 0
  | .u16 => .u16 0
  | .u32 => .u32 0
  | .f32 => .f32 0
  | .bool => .bool false
  | .bytes => .bytes []
  | .param => .param (.u8 0)

/-- The type of an operand value. -/
def Operand.type : Operand → OperandType
  | .u8 _ => .u8
  | .u16 _ => .u16
  | .u32 _ => .u32
  | .f32 _ => .f32
  | .bool _ => .bool
  | .bytes _ => .bytes
  | .param _ => .param

/-- The request whose code is `op` and whose operand record is all zero. -/
def zeroRequest (op : Byte) : Request :=
  match opRow op with
  | none => ⟨op, []⟩
  | some row => ⟨op, row.operands.map OperandType.zero⟩

/-- What the decoder reads from a row of spec/opcode_table.json given as a number. Every row has 8 bits,
the operation code; the operand record has no bits in the table, and is taken as zero. -/
def decodeTableWord (nbits w : Nat) : Option Instr :=
  if nbits = 8 then
    match decode (zeroRequest (BitVec.ofNat 8 w)) with
    | .instr i => some i
    | .unassignedOp _ => none
    | .operandTypes _ => none
  else none

end Sys2Proof
end

