-- ==== Sys2Proof/Config.lean ====
section
/-! DEFINITION. What an instance of the block fixes (00_scope.md §4, rules R3, R141, R263): the types of
the configuration records, the OPEN parameters, and the free values. The records' contents are in
Machine/Params.lean. -/

namespace Sys2Proof.Config

/-- A quantizer domain of rule R141: the bounds as binary32 patterns, and the width. -/
structure Domain where
  min : F32
  max : F32
  bits : Byte
  deriving DecidableEq, Repr

/-- The constants of rule R3, as one record, in the order of its table. -/
structure Constants where
  sync1 : Byte
  sync2 : Byte
  hdrLen : Nat
  maxFrame : Nat
  crcPoly : U16
  frameCrcSeed : U16
  recordTag : Byte
  recordLen : Nat
  canFrameLen : Nat
  canDlc : Nat
  infoStd : Byte
  infoExt : Byte
  pos16 : Domain
  vel12 : Domain
  vel16 : Domain
  kp12 : Domain
  kd12 : Domain
  tq12 : Domain
  tq16 : Domain
  modeMit : Byte
  modePosition : Byte
  modeSpeed : Byte
  typeDeviceId : Byte
  typeFeedback : Byte
  typeEnable : Byte
  typeStop : Byte
  typeSetZero : Byte
  typeSetAddr : Byte
  typeParamRead : Byte
  typeParamWrite : Byte
  typeFault : Byte
  typeSaveParams : Byte
  typeSetBaud : Byte
  typeActiveReport : Byte
  typeSetProtocol : Byte
  versionRequest : List Byte
  versionReply : List Byte
  saveMagic : List Byte
  prefixPattern : List Byte
  faultBits : List Nat
  deriving DecidableEq, Repr

/-- `QUANT_ARITH` (rule R140, decision D9). -/
inductive QuantArith where
  | binary32
  | binary64
  deriving DecidableEq, Repr

/-- `EXT_FB_LAYOUT` (rule R220, decision D16): where each 16-bit field of a type-2 feedback payload
starts, and whether its first byte is the most significant. -/
structure FbLayout where
  angleAt : Nat
  velocityAt : Nat
  torqueAt : Nat
  temperatureAt : Nat
  bigEndian : Bool
  deriving DecidableEq, Repr

/-- `LOCAL_ADDR` (decision D20, OPEN): the instance's default requester address. No rule depends on it.
Safe: notes/assumptions/14.md. -/
opaque localAddr : Byte

/-- `FAULT_TABLE_ORDER` (decision D30, OPEN): the fault bit positions in the order of the fault table. -/
opaque faultTableOrder : List Nat

/-- `FAULT_NAMES` (decision D30, OPEN): the name of the fault at a bit position. -/
opaque faultName : Nat → String

/-- Free value: `FS.len` after a reset of the synchronizer, which the spec leaves unspecified (rule R30).
The argument is the model's draw counter, so two resets need not agree. Safe: notes/assumptions/4.md. -/
opaque freeLen : Nat → U16

/-- Free value: `FS.buf[i]` after a reset of the synchronizer, which the spec leaves unspecified (rules
R27, R30). The arguments are the draw counter and the index `i`. Safe: notes/assumptions/4.md. -/
opaque freeBufByte : Nat → Nat → Byte

/-- Free value: where the code of `Q_ENCODE` rises to `k + 1` among the operands whose quotient `q` an
overflow has made an infinity or a NaN. Rule R143 states no code there and rule R149 makes the code
non-decreasing, so what is free is the places of its steps, each a multiple of `2^(-149)`. The arguments
are `min`, `max`, `bits` and `k`. DESIGN CHOICE, safe: notes/assumptions/8.md. -/
opaque freeCodeStep : F32 → F32 → Byte → Nat → Int

/-- Free value: the sign and payload of the NaN that is the result of `Q_DECODE 0, min, max, bits` when
`max -f min` overflows (rule R144's pseudocode: `0 *f inf`). The arguments are `u`, `min`, `max` and
`bits`. Safe: notes/assumptions/9.md. -/
opaque freeNan : U32 → F32 → F32 → Byte → F32

end Sys2Proof.Config
end

