-- ==== Sys2Proof/Machine/Params.lean ====
section
/-! DEFINITION. The contents of the configuration records: the constants of rule R3, the domains of rule
R141 among them, `QUANT_ARITH` (R140) and `EXT_FB_LAYOUT` (R220). No operation changes them (R263), and
every rule of the model that uses one reads it here, so that an audit changes this record alone. -/

namespace Sys2Proof.Machine

/-- The constants of rule R3. -/
def constants : Config.Constants where
  sync1 := 0x5A
  sync2 := 0xA5
  hdrLen := 6
  maxFrame := 512
  crcPoly := 0x1021
  frameCrcSeed := 0x0000
  recordTag := 0x91
  recordLen := 76
  canFrameLen := 13
  canDlc := 8
  infoStd := 0x08
  infoExt := 0x88
  pos16 := ⟨0xC1491EB8, 0x41491EB8, 16⟩
  vel12 := ⟨0xC2040000, 0x42040000, 12⟩
  vel16 := ⟨0xC2040000, 0x42040000, 16⟩
  kp12 := ⟨0x00000000, 0x43FA0000, 12⟩
  kd12 := ⟨0x00000000, 0x40A00000, 12⟩
  tq12 := ⟨0xC1600000, 0x41600000, 12⟩
  tq16 := ⟨0xC1600000, 0x41600000, 16⟩
  modeMit := 0
  modePosition := 1
  modeSpeed := 2
  typeDeviceId := 0x00
  typeFeedback := 0x02
  typeEnable := 0x03
  typeStop := 0x04
  typeSetZero := 0x06
  typeSetAddr := 0x07
  typeParamRead := 0x11
  typeParamWrite := 0x12
  typeFault := 0x15
  typeSaveParams := 0x16
  typeSetBaud := 0x17
  typeActiveReport := 0x18
  typeSetProtocol := 0x19
  versionRequest := [0x00, 0xC4]
  versionReply := [0x00, 0xC4, 0x56]
  saveMagic := [0x01, 0x02, 0x03, 0x04, 0x05, 0x06, 0x07, 0x08]
  prefixPattern := [0x01, 0x02, 0x03, 0x04, 0x05, 0x06]
  faultBits := [0, 1, 2, 3, 4, 5, 7, 8, 9, 14, 16]

/-! The documented domains (rule R141). -/

def pos16 : Config.Domain := constants.pos16
def vel12 : Config.Domain := constants.vel12
def vel16 : Config.Domain := constants.vel16
def kp12 : Config.Domain := constants.kp12
def kd12 : Config.Domain := constants.kd12
def tq12 : Config.Domain := constants.tq12
def tq16 : Config.Domain := constants.tq16

/-- The seven domains of rule R141. -/
def domains : List Config.Domain := [pos16, vel12, vel16, kp12, kd12, tq12, tq16]

/-- `QUANT_ARITH` at its default (rule R140; DESIGN CHOICE, unsafe: notes/assumptions/10.md). -/
def quantArith : Config.QuantArith := .binary32

/-- `EXT_FB_LAYOUT` at its default (rule R220; DESIGN CHOICE, unsafe: notes/assumptions/13.md). -/
def extFbLayout : Config.FbLayout where
  angleAt := 0
  velocityAt := 2
  torqueAt := 4
  temperatureAt := 6
  bigEndian := true

end Sys2Proof.Machine
end

