-- ==== Sys2Proof/Machine/State.lean ====
section
/-! DEFINITION. The architectural state (10_state.md), the events (R110), the errors (R240), the result
ports (R31, R61), and the host's side of the request interface (R60). -/

namespace Sys2Proof.Machine

/-- The synchronizer's phases (rule R24). -/
inductive Phase where
  | waitSync1
  | waitSync2
  | readHeader
  | readPayload
  deriving DecidableEq, Repr

/-- The frame synchronizer state `FS` (rules R20, R24 to R27), the block's one piece of architectural
state. -/
structure Fs where
  /-- `FS.phase` (R24). -/
  phase : Phase
  /-- `FS.count` (R25): the bytes of the current frame held in `buf`, in a 10-bit field. -/
  count : BitVec 10
  /-- `FS.len` (R26): the declared payload length, meaningful only in `READ_PAYLOAD`. -/
  len : U16
  /-- `FS.buf` (R27): `MAX_FRAME` bytes, of which `buf[0 .. count)` are defined. -/
  buf : Vector Byte constants.maxFrame
  deriving DecidableEq, Repr

/-- What one `FRM_FEED` produces (rule R110). -/
inductive Event where
  | none
  | frame (payload : List Byte) (isRecord : Bool)
  | crcError (computed received : U16)
  deriving DecidableEq, Repr

/-- `CAN_CLASSIFY`'s result (rule R164). -/
inductive CanKind where
  | stdData
  | extData
  | ignore
  deriving DecidableEq, Repr

/-- `EXT_CLASSIFY`'s result (rule R216). -/
inductive ExtDecoder where
  | deviceId
  | feedback
  | paramRead
  | fault
  | raw
  deriving DecidableEq, Repr

/-- The result ports of an operation that ended with `OK` (rule R31; the results column of rule R61). -/
inductive Result where
  /-- `FRM_RESET`: no result. -/
  | empty
  /-- `crc: u16` of `CRC16` and `CRC16_BYTE`. -/
  | crc (c : U16)
  /-- `event` of `FRM_FEED`. -/
  | event (e : Event)
  /-- `events` of `FRM_FEED_BATCH`. -/
  | events (es : List Event)
  /-- `frame` of `FRM_ENCODE`, `CAN_BUILD_STD` and `CAN_BUILD_EXT`. -/
  | frame (f : List Byte)
  /-- `u: u32` of `Q_ENCODE`. -/
  | code (u : U32)
  /-- `y: f32` of `Q_DECODE`. -/
  | value (y : F32)
  /-- `info`, `id`, `data` of `CAN_PARSE`. -/
  | canFrame (info : Byte) (id : U32) (data : List Byte)
  /-- `kind` of `CAN_CLASSIFY`. -/
  | kind (k : CanKind)
  /-- `id` of `ID_MAKE_STD` and `ID_MAKE_EXT`. -/
  | id (i : U32)
  /-- `command_type`, `aux16`, `target` of `ID_PARSE_EXT`. -/
  | idFields (commandType : Byte) (aux16 : U16) (target : Byte)
  /-- `data` of the standard builders. -/
  | data (d : List Byte)
  /-- The results of `STD_FB_DECODE`. -/
  | stdFeedback (address : Byte) (angle velocity torque temperature : F32)
  /-- `id`, `data` of the extended builders. -/
  | idData (i : U32) (d : List Byte)
  /-- `decoder` of `EXT_CLASSIFY`. -/
  | decoder (d : ExtDecoder)
  /-- `address`, `device_id` of `EXT_DEC_DEVICE_ID`. -/
  | deviceId (address : Byte) (deviceId : U64)
  /-- `EXT_DEC_FEEDBACK` with `kind = FEEDBACK`. -/
  | extFeedback (address : Byte) (faultBits : BitVec 6) (modeStatus : BitVec 2)
      (angle velocity torque temperature : F32)
  /-- `EXT_DEC_FEEDBACK` with `kind = VERSION`. -/
  | extVersion (address : Byte) (faultBits : BitVec 6) (modeStatus : BitVec 2) (v0 v1 v2 v3 : Byte)
  /-- The results of `EXT_DEC_PARAM_READ`. -/
  | paramRead (index : U16) (success : Bool) (raw : List Byte) (asF32 : F32) (asU32 : U32)
  /-- `word` of `EXT_DEC_FAULT`. -/
  | faultWord (word : U32)
  /-- `raw`, `matched`, `count` of `FAULT_MATCH`. -/
  | faultMatch (raw matched : U32) (count : Byte)
  deriving DecidableEq, Repr

/-- The error statuses with their info values (rules R240, R241; notes/assumptions/15.md). -/
inductive Error where
  /-- `ERR_ILLEGAL_OP`: raised before any operand is examined, so it carries no operand (R242). -/
  | illegalOp
  /-- `ERR_LENGTH(n)`. -/
  | length (n : Nat)
  /-- `ERR_RANGE(v)`. -/
  | range (v : Int)
  /-- `ERR_DOMAIN(x)` or `ERR_DOMAIN(min, max)`: the float operands named, in order. -/
  | domain (xs : List F32)
  /-- `ERR_TYPE(tag)`: the tag code of the `ParamValue` (R64). -/
  | type (tag : Byte)
  deriving DecidableEq, Repr

/-- How an operation ended (rule R31): with `OK` and its result ports, or with an error status and its
info value, and then no port is driven (rule R241). -/
inductive Answer where
  | ok (r : Result)
  | error (e : Error)
  deriving DecidableEq, Repr

/-- The machine's state. `fs` is the whole architectural state (rules R2, R20 to R23). The other three
fields stand for the interface: `pending` is what the host is going to issue, one request at a time (R60);
it is the host's, not a buffer of the block (R50; notes/assumptions/5.md). `answer` is the status and result ports of the last
operation (R31), absent while no operation has ended (notes/assumptions/6.md). `draws` is the model's own: how many times a reset
of the synchronizer has left `FS.len` and `FS.buf` unspecified (R30), the argument of their free values. -/
structure State where
  fs : Fs
  draws : Nat
  pending : List Request
  answer : Option Answer
  deriving DecidableEq, Repr

/-- The stops of the machine that are faults. -/
inductive Fault where
  /-- Raised by `step`, for a request whose operand record does not have the types its operation's rule
  names. Rule R63 checks the types at the request and gives the violation no status. Safe: the model stops
  at a request the spec's typed interface cannot carry (notes/assumptions/3.md). -/
  | operandTypes (op : Byte)
  deriving DecidableEq, Repr

/-- The stops of the machine that are refusals. -/
inductive Refusal where
  /-- Raised by an arm of `exec` that has no meaning yet. Safe: the model stops. No arm raises it. -/
  | notModelled (mnemonic : String)
  deriving DecidableEq, Repr

/-- The machine after reset (rules R30, R260): `FS.phase` is `WAIT_SYNC1`, `FS.count` is 0. The spec gives
`FS.len` and `FS.buf` no reset value; they are zero here (DESIGN CHOICE, unsafe: notes/assumptions/1.md),
and so is the model's own `draws` (DESIGN CHOICE, unsafe: notes/assumptions/2.md). No request has been
issued and none answered. -/
def State.reset : State where
  fs := { phase := .waitSync1, count := 0, len := 0, buf := Vector.replicate constants.maxFrame 0 }
  draws := 0
  pending := []
  answer := none

end Sys2Proof.Machine
end

