-- ==== Sys2Proof/Machine/Operands.lean ====
section
/-! DEFINITION. Reading and laying out operands: the byte-order helpers of rules R40 to R43, and the
`ParamValue` layouts of rules R64 and R208. -/

namespace Sys2Proof.Machine

/-- `B[i]` (00_scope.md §5). Every rule reads only below `len(B)`; the value past the end is never used
(notes/assumptions/17.md). -/
def byteAt (bs : List Byte) (i : Nat) : Byte :=
  bs.getD i 0

/-- `B[a..b)` (00_scope.md §5). -/
def slice (bs : List Byte) (a b : Nat) : List Byte :=
  (bs.take b).drop a

/-- `le16(B, i)` (rule R40). -/
def le16 (bs : List Byte) (i : Nat) : U16 :=
  byteAt bs (i + 1) ++ byteAt bs i

/-- `le32(B, i)` (rule R40). -/
def le32 (bs : List Byte) (i : Nat) : U32 :=
  byteAt bs (i + 3) ++ byteAt bs (i + 2) ++ byteAt bs (i + 1) ++ byteAt bs i

/-- `be16(B, i)` (rule R41). -/
def be16 (bs : List Byte) (i : Nat) : U16 :=
  byteAt bs i ++ byteAt bs (i + 1)

/-- `be32(B, i)` (rule R41). -/
def be32 (bs : List Byte) (i : Nat) : U32 :=
  byteAt bs i ++ byteAt bs (i + 1) ++ byteAt bs (i + 2) ++ byteAt bs (i + 3)

/-- `be64(B, i)` (rule R217): the first byte most significant. -/
def be64 (bs : List Byte) (i : Nat) : U64 :=
  be32 bs i ++ be32 bs (i + 4)

/-- `bytes_le(v, n)` (rule R40): `[v[7:0], v[15:8], ...]`. -/
def bytesLe {w : Nat} (v : BitVec w) (n : Nat) : List Byte :=
  (List.range n).map fun k => v.extractLsb' (8 * k) 8

/-- `bytes_be(v, n)` (rule R41): the most significant byte first. -/
def bytesBe {w : Nat} (v : BitVec w) (n : Nat) : List Byte :=
  (bytesLe v n).reverse

/-- `n` zero bytes. -/
def zeros (n : Nat) : List Byte :=
  List.replicate n 0

/-- A CAN payload of `CAN_DLC` bytes from the bytes a rule names first: every byte it does not name is zero
(rule R200, decision D15). -/
def canPayload (named : List Byte) : List Byte :=
  named ++ zeros (constants.canDlc - named.length)

/-- A limit an operation's rule sets on an operand, met or not (rule R243). -/
def outside (lo hi v : Int) : Bool :=
  decide (v < lo) || decide (hi < v)

/-- The tag code of a `ParamValue` (rule R64). -/
def paramTag : ParamValue → Byte
  | .u8 _ => 0
  | .u16 _ => 1
  | .u32 _ => 2
  | .i16 _ => 3
  | .f32 _ => 4
  | .string _ => 5

/-- The bytes of a `ParamValue` in a parameter write (rule R208's pseudocode), with its errors:
`ERR_RANGE` for a number outside its tag's range (R64), `ERR_TYPE` for a `String`. -/
def paramBytes : ParamValue → Except Error (List Byte)
  | .u8 n => if outside 0 0xFF n then .error (.range n) else .ok (bytesLe (BitVec.ofInt 8 n) 1)
  | .u16 n => if outside 0 0xFFFF n then .error (.range n) else .ok (bytesLe (BitVec.ofInt 16 n) 2)
  | .i16 n => if outside (-32768) 32767 n then .error (.range n) else .ok (bytesLe (BitVec.ofInt 16 n) 2)
  | .u32 n => if outside 0 0xFFFFFFFF n then .error (.range n) else .ok (bytesLe (BitVec.ofInt 32 n) 4)
  | .f32 x => .ok (bytesLe x 4)
  | .string s => .error (.type (paramTag (.string s)))

end Sys2Proof.Machine
end

