-- ==== Sys2Proof/Machine/Ops.lean ====
section
/-! DEFINITION. The operations every meaning is built from: ending with `OK` and result ports, ending with
an error, and the accesses to `FS`. The block has no memory and no registers (rules R21, R44), so there is
no other access. -/

namespace Sys2Proof.Machine

/-- The state with status `OK` and the result ports `r` driven (rule R31), all else as it was. -/
def State.answering (s : State) (r : Result) : State :=
  { s with answer := some (.ok r) }

/-- The state with the error's status and info value driven and no result port (rule R241), all else as it
was. -/
def State.failing (s : State) (e : Error) : State :=
  { s with answer := some (.error e) }

/-- Ends the operation with `OK`, driving its result ports (rule R31). -/
def succeed (r : Result) (s : State) : Host.Outcome State Fault Refusal :=
  .next (s.answering r)

/-- `raise ERR_X(info)` (00_scope.md §5, rule R241): the operation ends with the error's status and info
value, drives no result port and writes no state. The block takes no exception in the processor's sense:
nothing is saved, nothing is vectored, and there is no return (rule R248). -/
def raise (e : Error) (s : State) : Host.Outcome State Fault Refusal :=
  .next (s.failing e)

/-- Ends a pure operation (rule R49) as its rule's pseudocode says: with its results, or with the error it
raised. -/
def finish (r : Except Error Result) (s : State) : Host.Outcome State Fault Refusal :=
  match r with
  | .ok r => succeed r s
  | .error e => raise e s

/-- `FS.buf` as a byte sequence. -/
def Fs.bytes (fs : Fs) : List Byte :=
  fs.buf.toList

/-- `FS.buf[i] <- b`. An index past the buffer's end, which no state of rule R28 gives, writes nothing
(notes/assumptions/17.md). -/
def Fs.store (fs : Fs) (i : Nat) (b : Byte) : Fs :=
  { fs with buf := fs.buf.setIfInBounds i b }

/-- `FS.buf[FS.count] <- b; FS.count <- FS.count + 1` (rules R114, R115). -/
def Fs.push (fs : Fs) (b : Byte) : Fs :=
  { fs.store fs.count.toNat b with count := fs.count + 1 }

/-- The bytes `FS.buf` holds after its `n`-th reset: one free value each (rules R27, R30). -/
def freeBuf (n : Nat) : Vector Byte constants.maxFrame :=
  Vector.ofFn fun i => Config.freeBufByte n i

/-- `RESET_FS` (rule R111): `FS.phase <- WAIT_SYNC1; FS.count <- 0`, with `FS.len` and `FS.buf` left
unspecified (rule R30): they become free values, drawn at the state's draw counter. -/
def resetFs (s : State) : State :=
  { s with
    fs := { phase := .waitSync1, count := 0, len := Config.freeLen s.draws, buf := freeBuf s.draws }
    draws := s.draws + 1 }

end Sys2Proof.Machine
end

