-- ==== Sys2Proof/Machine/Can.lean ====
section
/-! DEFINITION. The CAN frame builder and parser, and the identifier fields (44_can.md; 30_encoding.md
rules R66 to R69). -/

namespace Sys2Proof.Machine

/-- The info byte's `EXT` flag (rule R67). -/
def infoExtFlag (info : Byte) : Bool :=
  info.getLsbD 7

/-- The info byte's `RTR` flag (rule R67). -/
def infoRtrFlag (info : Byte) : Bool :=
  info.getLsbD 6

/-- The info byte's `DLC` field (rule R67). -/
def infoDlc (info : Byte) : BitVec 6 :=
  info.extractLsb' 0 6

/-- The 13-byte frame of rule R66. -/
def canFrameOf (info : Byte) (id : U32) (data : List Byte) : List Byte :=
  [info] ++ bytesBe id 4 ++ data

/-- A builder's result or error (the pseudocode of rules R161, R162): the length is checked before the
identifier's range. -/
def canBuild (info : Byte) (maxId : Nat) (id : U32) (data : List Byte) : Except Error Result :=
  if data.length ≠ constants.canDlc then .error (.length data.length)
  else if maxId < id.toNat then .error (.range id.toNat)
  else .ok (.frame (canFrameOf info id data))

/-- `CAN_PARSE`'s results or error (rule R163's pseudocode). -/
def canParse (frame : List Byte) : Except Error Result :=
  if frame.length ≠ constants.canFrameLen then .error (.length frame.length)
  else .ok (.canFrame (byteAt frame 0) (be32 frame 1) (slice frame 5 constants.canFrameLen))

/-- `CAN_CLASSIFY`'s kind (rule R164), from `info[7:6]`. -/
def canClassify (info : Byte) : CanKind :=
  if info.extractLsb' 6 2 = 0b00#2 then .stdData
  else if info.extractLsb' 6 2 = 0b10#2 then .extData
  else .ignore

/-- The standard identifier (rule R68). -/
def stdId (mode address : Byte) : U32 :=
  mode.zeroExtend 32 <<< 8 ||| address.zeroExtend 32

/-- `ID_MAKE_STD`'s result or error (rule R165's pseudocode). -/
def idMakeStd (mode address : Byte) : Except Error Result :=
  if 8 ≤ mode.toNat then .error (.range mode.toNat) else .ok (.id (stdId mode address))

/-- The extended identifier (rules R69, R166). -/
def extId (commandType : Byte) (aux16 : U16) (target : Byte) : U32 :=
  (commandType &&& 0x1F).zeroExtend 32 <<< 24 ||| aux16.zeroExtend 32 <<< 8 ||| target.zeroExtend 32

/-- `id[28:24]` (rule R167). -/
def extCommandType (id : U32) : Byte :=
  (id.extractLsb' 24 5).zeroExtend 8

/-- `id[23:8]` (rule R167). -/
def extAux (id : U32) : U16 :=
  id.extractLsb' 8 16

/-- `id[7:0]` (rule R167). -/
def extTarget (id : U32) : Byte :=
  id.extractLsb' 0 8

/-- The mode field of a received standard identifier, `id[10:8]` (rule R169). -/
def stdIdMode (id : U32) : BitVec 3 :=
  id.extractLsb' 8 3

/-- The motor address of a received standard identifier, `id[7:0]` (rule R169). -/
def stdIdAddress (id : U32) : Byte :=
  id.extractLsb' 0 8

/-- `CAN_BUILD_STD id, data` (rule R161). -/
def execCanBuildStd (id : U32) (data : List Byte) (s : State) : Host.Outcome State Fault Refusal :=
  finish (canBuild constants.infoStd 0x7FF id data) s

/-- `CAN_BUILD_EXT id, data` (rule R162). -/
def execCanBuildExt (id : U32) (data : List Byte) (s : State) : Host.Outcome State Fault Refusal :=
  finish (canBuild constants.infoExt 0x1FFFFFFF id data) s

/-- `CAN_PARSE frame` (rule R163). -/
def execCanParse (frame : List Byte) (s : State) : Host.Outcome State Fault Refusal :=
  finish (canParse frame) s

/-- `CAN_CLASSIFY info` (rule R164). -/
def execCanClassify (info : Byte) (s : State) : Host.Outcome State Fault Refusal :=
  succeed (.kind (canClassify info)) s

/-- `ID_MAKE_STD mode, address` (rule R165). -/
def execIdMakeStd (mode address : Byte) (s : State) : Host.Outcome State Fault Refusal :=
  finish (idMakeStd mode address) s

/-- `ID_MAKE_EXT command_type, aux16, target` (rule R166). -/
def execIdMakeExt (commandType : Byte) (aux16 : U16) (target : Byte) (s : State) :
    Host.Outcome State Fault Refusal :=
  succeed (.id (extId commandType aux16 target)) s

/-- `ID_PARSE_EXT id` (rule R167). -/
def execIdParseExt (id : U32) (s : State) : Host.Outcome State Fault Refusal :=
  succeed (.idFields (extCommandType id) (extAux id) (extTarget id)) s

end Sys2Proof.Machine
end

