-- ==== Sys2Proof/Machine/Float.lean ====
section
/-! DEFINITION. IEEE 754 binary arithmetic, rounded to nearest, ties to even (00_scope.md §5, rule R140).

A finite value is held exactly, as a sign and a multiple of the format's least positive value
`2^(-unit)`. In that form every sum is an integer and every product and quotient a ratio of two naturals,
and one function, `Format.round`, rounds a ratio. -/

namespace Sys2Proof.Machine

/-- A binary floating-point format. -/
structure Format where
  /-- The bits of the fraction field. -/
  frac : Nat
  /-- The least positive value of the format is `2^(-unit)`. -/
  unit : Nat
  /-- The largest exponent field, which marks infinities and NaNs. -/
  expMax : Nat
  deriving DecidableEq, Repr

def binary32 : Format := ⟨23, 149, 255⟩
def binary64 : Format := ⟨52, 1074, 2047⟩

/-- A floating-point datum: `fin neg m` is `(-1)^neg * m * 2^(-unit)` of its format. -/
inductive Fp where
  | nan
  | inf (neg : Bool)
  | fin (neg : Bool) (m : Nat)
  deriving DecidableEq, Repr

/-- `n / d` to the nearest natural, ties to the even one. -/
def roundHalfEven (n d : Nat) : Nat :=
  let q := n / d
  let r := n % d
  if 2 * r < d then q else if d < 2 * r then q + 1 else q + q % 2

/-- How many bits of the integer part of `n / d` lie below the format's significand. -/
def Format.excess (f : Format) (n d : Nat) : Nat :=
  Nat.log2 (n / d) - f.frac

/-- The encoding, less its sign, of the infinities. -/
def Format.infCode (f : Format) : Nat :=
  f.expMax * 2 ^ f.frac

/-- The value `(-1)^neg * (n / d) * 2^(-unit)` rounded to nearest, ties to even. The significand `q` at
exponent `t` has the encoding `t * 2^frac + q`, so a carry out of `q` needs no case of its own and an
encoding of `infCode` or more is an overflow. -/
def Format.round (f : Format) (neg : Bool) (n d : Nat) : Fp :=
  let t := f.excess n d
  let q := roundHalfEven n (d * 2 ^ t)
  if f.infCode ≤ t * 2 ^ f.frac + q then .inf neg else .fin neg (q * 2 ^ t)

/-- `-x`. -/
def Fp.neg : Fp → Fp
  | .nan => .nan
  | .inf a => .inf (!a)
  | .fin a m => .fin (!a) m

/-- `x +f y`. An exact zero sum of opposite signs is +0. -/
def Format.add (f : Format) (x y : Fp) : Fp :=
  match x, y with
  | .nan, _ => .nan
  | _, .nan => .nan
  | .inf a, .inf b => if a = b then .inf a else .nan
  | .inf a, .fin _ _ => .inf a
  | .fin _ _, .inf b => .inf b
  | .fin a m, .fin b n =>
    if a = b then f.round a (m + n) 1
    else if n < m then f.round a (m - n) 1
    else if m < n then f.round b (n - m) 1
    else .fin false 0

/-- `x -f y`. -/
def Format.sub (f : Format) (x y : Fp) : Fp :=
  f.add x y.neg

/-- `x *f y`. -/
def Format.mul (f : Format) (x y : Fp) : Fp :=
  match x, y with
  | .nan, _ => .nan
  | _, .nan => .nan
  | .inf a, .inf b => .inf (a ^^ b)
  | .inf a, .fin b n => if n = 0 then .nan else .inf (a ^^ b)
  | .fin a m, .inf b => if m = 0 then .nan else .inf (a ^^ b)
  | .fin a m, .fin b n => f.round (a ^^ b) (m * n) (2 ^ f.unit)

/-- `x /f y`. -/
def Format.div (f : Format) (x y : Fp) : Fp :=
  match x, y with
  | .nan, _ => .nan
  | _, .nan => .nan
  | .inf _, .inf _ => .nan
  | .inf a, .fin b _ => .inf (a ^^ b)
  | .fin a _, .inf b => .fin (a ^^ b) 0
  | .fin a m, .fin b n =>
    if n = 0 then (if m = 0 then .nan else .inf (a ^^ b))
    else f.round (a ^^ b) (m * 2 ^ f.unit) n

/-- `f32(n)` in the given format (00_scope.md §5): the nearest value to an integer. -/
def Format.ofInt (f : Format) (z : Int) : Fp :=
  f.round (decide (z < 0)) (z.natAbs * 2 ^ f.unit) 1

/-- The nearest value to the decimal literal `n / d` (rules R70, R141). -/
def Format.ofRatio (f : Format) (neg : Bool) (n d : Nat) : Fp :=
  f.round neg (n * 2 ^ f.unit) d

/-- The signed multiple of `2^(-unit)`. -/
def signed (neg : Bool) (m : Nat) : Int :=
  if neg then -(m : Int) else (m : Int)

/-- `x < y`: false when either is a NaN, and the zeros compare equal. -/
def Fp.lt : Fp → Fp → Bool
  | .fin a m, .fin b n => decide (signed a m < signed b n)
  | .fin _ _, .inf b => !b
  | .inf a, .fin _ _ => a
  | .inf a, .inf b => a && !b
  | .nan, _ => false
  | _, .nan => false

/-- `isNaN(x)`. -/
def Fp.isNan : Fp → Bool
  | .nan => true
  | .inf _ => false
  | .fin _ _ => false

/-- Whether `x` is neither NaN nor infinite. -/
def Fp.isFinite : Fp → Bool
  | .nan => false
  | .inf _ => false
  | .fin _ _ => true

/-- `trunc(x)` (00_scope.md §5) of a finite `x`: rounds toward zero. -/
def Format.trunc (f : Format) : Fp → Option Int
  | .nan => none
  | .inf _ => none
  | .fin a m => some (signed a (m / 2 ^ f.unit))

/-- `float32(w)`: the binary32 datum with pattern `w`. -/
def unpack32 (w : F32) : Fp :=
  let neg := w.msb
  let e := (w.extractLsb' 23 8).toNat
  let m := (w.extractLsb' 0 23).toNat
  if e = 255 then (if m = 0 then .inf neg else .nan)
  else if e = 0 then .fin neg m
  else .fin neg ((2 ^ 23 + m) * 2 ^ (e - 1))

/-- The sign bit of a pattern. -/
def signBit (neg : Bool) : Nat :=
  if neg then 2 ^ 31 else 0

/-- `bits32(x)` of a binary32 datum; a NaN, which has many patterns, takes the one given. -/
def pack32 (nanBits : F32) : Fp → F32
  | .nan => nanBits
  | .inf a => BitVec.ofNat 32 (signBit a + binary32.infCode)
  | .fin a m =>
    let t := binary32.excess m 1
    BitVec.ofNat 32 (signBit a + t * 2 ^ 23 + m / 2 ^ t)

/-- A binary32 datum as a binary64 datum, exactly. -/
def widen : Fp → Fp
  | .nan => .nan
  | .inf a => .inf a
  | .fin a m => .fin a (m * 2 ^ (binary64.unit - binary32.unit))

/-- A binary64 datum rounded to binary32. -/
def narrow : Fp → Fp
  | .nan => .nan
  | .inf a => .inf a
  | .fin a m => binary32.round a m (2 ^ (binary64.unit - binary32.unit))

end Sys2Proof.Machine
end

