-- ==== Sys2Proof/Machine/Quantizer.lean ====
section
/-! DEFINITION. The fixed-point linear quantizer (43_quantizer.md). -/

namespace Sys2Proof.Machine

/-- The format the formulas are evaluated in (rule R140, `QUANT_ARITH`). -/
def arithFormat : Config.QuantArith → Format
  | .binary32 => binary32
  | .binary64 => binary64

/-- A binary32 operand in that format; both formats hold it exactly. -/
def arithRead (a : Config.QuantArith) (x : F32) : Fp :=
  match a with
  | .binary32 => unpack32 x
  | .binary64 => widen (unpack32 x)

/-- A result of that format as a binary32 pattern; a NaN takes the pattern given. -/
def arithWrite (a : Config.QuantArith) (nanBits : F32) (y : Fp) : F32 :=
  match a with
  | .binary32 => pack32 nanBits y
  | .binary64 => pack32 nanBits (narrow y)

/-- `check_bits(bits)` fails (rule R145). -/
def badBits (bits : Byte) : Bool :=
  outside 1 16 bits.toNat

/-- `check_range(min, max)` fails (rule R145): a bound is NaN or infinite, or `min ≥ max`. -/
def badRange (min max : F32) : Bool :=
  !(unpack32 min).isFinite || !(unpack32 max).isFinite || !(unpack32 min).lt (unpack32 max)

/-- `clamp(x, min, max)` (rule R142); the comparisons are binary32 comparisons. -/
def clamp (x min max : F32) : F32 :=
  if (unpack32 x).lt (unpack32 min) then min else if (unpack32 max).lt (unpack32 x) then max else x

/-- The largest code, `2^bits - 1`. -/
def topCode (bits : Byte) : Nat :=
  2 ^ bits.toNat - 1

/-- `q` of rule R143's pseudocode, of the clamped operand: `((xc -f min) *f S) /f (max -f min)`. -/
def quantum (a : Config.QuantArith) (xc min max : F32) (bits : Byte) : Fp :=
  let f := arithFormat a
  let lo := arithRead a min
  let hi := arithRead a max
  let scale := f.ofInt (topCode bits)
  f.div (f.mul (f.sub (arithRead a xc) lo) scale) (f.sub hi lo)

/-- The largest number from `acc` to `acc + 2^n - 1` that satisfies `p`, found bit by bit, for a `p` that
holds at `acc` and, from there, at every number below one it holds at. -/
def greatest (p : Nat → Bool) : Nat → Nat → Nat
  | 0, acc => acc
  | n + 1, acc => if p (acc + 2 ^ n) then greatest p n (acc + 2 ^ n) else greatest p n acc

/-- The place of a binary32 pattern among all of them in rising order, -0.0 just below +0.0. -/
def orderKey (w : F32) : Nat :=
  if w.msb then 2 ^ 32 - 1 - w.toNat else 2 ^ 31 + w.toNat

/-- The pattern at a place. -/
def ofOrderKey (k : Nat) : F32 :=
  if k < 2 ^ 31 then BitVec.ofNat 32 (2 ^ 32 - 1 - k) else BitVec.ofNat 32 (k - 2 ^ 31)

/-- The code of a finite quotient, and 0 for another. -/
def finiteCode (a : Config.QuantArith) (xc min max : F32) (bits : Byte) : Nat :=
  match (arithFormat a).trunc (quantum a xc min max bits) with
  | some z => z.toNat
  | none => 0

/-- The code of the largest operand from `min` to `xc` whose quotient is finite. As `x` rises the quotient
stays finite up to some operand and overflows from there on. -/
def lastFiniteCode (a : Config.QuantArith) (xc min max : F32) (bits : Byte) : Nat :=
  let fits := fun k => decide (k ≤ orderKey xc) && (quantum a (ofOrderKey k) min max bits).isFinite
  finiteCode a (ofOrderKey (greatest fits 32 (orderKey min))) min max bits

/-- A finite binary32 pattern as a multiple of `2^(-149)`. -/
def units32 (w : F32) : Int :=
  match unpack32 w with
  | .nan => 0
  | .inf _ => 0
  | .fin neg m => signed neg m

/-- How many of the free steps of the code lie at or below the operand: any non-decreasing function of the
operand with values from 0 to `2^bits - 1`. -/
def freeCode (xc min max : F32) (bits : Byte) : Nat :=
  (List.range (topCode bits)).countP fun k => decide (Config.freeCodeStep min max bits k ≤ units32 xc)

/-- The code where an overflow has made `q` an infinity or a NaN, of which no rule states `trunc`. It is a
free value that keeps what the rules do state: 0 for `bits = 1` and `x < max` (rule R143), and within
`0 .. 2^bits - 1` and non-decreasing in `x` (rule R149), so never below a code that the formula gives to a
smaller operand (DESIGN CHOICE, safe: notes/assumptions/8.md). -/
def overflowCode (a : Config.QuantArith) (xc min max : F32) (bits : Byte) : Nat :=
  if bits.toNat = 1 ∧ (unpack32 xc).lt (unpack32 max) then 0
  else Nat.max (lastFiniteCode a xc min max bits) (freeCode xc min max bits)

/-- `trunc(q)` as the code of rule R143, of the clamped operand. -/
def encodeCode (a : Config.QuantArith) (xc min max : F32) (bits : Byte) : U32 :=
  match (arithFormat a).trunc (quantum a xc min max bits) with
  | some z => BitVec.ofInt 32 z
  | none => BitVec.ofNat 32 (overflowCode a xc min max bits)

/-- `y` of rule R144's pseudocode: `((f32(u) *f D) /f S) +f min`. -/
def dequantum (a : Config.QuantArith) (u : U32) (min max : F32) (bits : Byte) : Fp :=
  let f := arithFormat a
  let lo := arithRead a min
  let hi := arithRead a max
  let scale := f.ofInt (topCode bits)
  f.add (f.div (f.mul (f.ofInt u.toNat) (f.sub hi lo)) scale) lo

/-- A NaN pattern: the sign and fraction given, with a fraction of zero made nonzero. -/
def nanPattern (w : F32) : F32 :=
  if w.extractLsb' 0 23 = 0#23 then w ||| 0x7FC00000 else w ||| 0x7F800000

/-- The bits of `y` (rule R144). Where an overflowing `max -f min` makes the formula a NaN (only `u = 0`
does), which NaN is free (notes/assumptions/9.md). -/
def decodeBits (a : Config.QuantArith) (u : U32) (min max : F32) (bits : Byte) : F32 :=
  arithWrite a (nanPattern (Config.freeNan u min max bits)) (dequantum a u min max bits)

/-- `Q_ENCODE`'s result or error (rule R143's pseudocode). -/
def quantEncode (x min max : F32) (bits : Byte) : Except Error Result :=
  if badBits bits then .error (.range bits.toNat)
  else if badRange min max then .error (.domain [min, max])
  else if (unpack32 x).isNan then .error (.domain [x])
  else .ok (.code (encodeCode quantArith (clamp x min max) min max bits))

/-- `Q_DECODE`'s result or error (rule R144's pseudocode). -/
def quantDecode (u : U32) (min max : F32) (bits : Byte) : Except Error Result :=
  if badBits bits then .error (.range bits.toNat)
  else if topCode bits < u.toNat then .error (.range u.toNat)
  else if badRange min max then .error (.domain [min, max])
  else .ok (.value (decodeBits quantArith u min max bits))

/-- `Q_DECODE` over a documented domain, as the feedback decoders use it (rules R191, R220): their codes
always fit, so no error arises. -/
def decodeIn (d : Config.Domain) (u : U32) : F32 :=
  decodeBits quantArith u d.min d.max d.bits

/-- `f32(t) /f f32(10.0)` of a signed 16-bit number of tenths (rules R191, R220), in binary32. -/
def tenths (t : U16) : F32 :=
  pack32 0 (binary32.div (binary32.ofInt t.toInt) (binary32.ofInt 10))

/-- `Q_ENCODE x, min, max, bits` (rule R143). -/
def execQEncode (x min max : F32) (bits : Byte) (s : State) : Host.Outcome State Fault Refusal :=
  finish (quantEncode x min max bits) s

/-- `Q_DECODE u, min, max, bits` (rule R144). -/
def execQDecode (u : U32) (min max : F32) (bits : Byte) (s : State) :
    Host.Outcome State Fault Refusal :=
  finish (quantDecode u min max bits) s

end Sys2Proof.Machine
end

