-- ==== Sys2Proof/Machine/ExtDialect.lean ====
section
/-! DEFINITION. The payload marshaller of the extended dialect (46_ext_dialect.md). -/

namespace Sys2Proof.Machine

/-- `EXT_BUILD` (rule R200). -/
def extBuild (commandType : Byte) (aux16 : U16) (target : Byte) (data : List Byte) : Result :=
  .idData (extId commandType aux16 target) data

/-- `requester << 8`, the aux16 of every builder but `EXT_SET_ADDR` (rule R200). -/
def requesterAux (requester : Byte) : U16 :=
  requester.zeroExtend 16 <<< 8

/-- The payload of the prefix pattern (rules R211 to R213): `01 .. 06`, the operand, `00`. -/
def prefixed (b : Byte) : List Byte :=
  canPayload (constants.prefixPattern ++ [b])

/-- `EXT_PARAM_WRITE`'s results or error (rule R208's pseudocode). -/
def paramWrite (requester target : Byte) (index : U16) (value : ParamValue) : Except Error Result :=
  match paramBytes value with
  | .error e => .error e
  | .ok v =>
    .ok (extBuild constants.typeParamWrite (requesterAux requester) target
      (canPayload (bytesLe index 2 ++ [0x00, 0x00] ++ v)))

/-- `EXT_CLASSIFY`'s decoder (rule R216). -/
def extClassify (id : U32) : ExtDecoder :=
  let t := extCommandType id
  if t = constants.typeDeviceId then .deviceId
  else if t = constants.typeFeedback then .feedback
  else if t = constants.typeParamRead then .paramRead
  else if t = constants.typeFault then .fault
  else if t = constants.typeActiveReport then .feedback
  else .raw

/-- The responding motor's address in an inbound identifier: aux16 bits 7:0 (rules R215, R217, R218). -/
def inboundAddress (id : U32) : Byte :=
  (extAux id).extractLsb' 0 8

/-- `fault_bits`: aux16 bits 13:8 (rule R218). -/
def inboundFaultBits (id : U32) : BitVec 6 :=
  (extAux id).extractLsb' 8 6

/-- `mode_status`: aux16 bits 15:14 (rule R218). -/
def inboundModeStatus (id : U32) : BitVec 2 :=
  (extAux id).extractLsb' 14 2

/-- The names of `mode_status` (rule R219). -/
inductive ModeStatus where
  | reset
  | calibrating
  | running
  | unknown
  deriving DecidableEq, Repr

/-- The name of a `mode_status` value (rule R219). -/
def modeStatusName (v : BitVec 2) : ModeStatus :=
  if v = 0 then .reset else if v = 1 then .calibrating else if v = 2 then .running else .unknown

/-- A 16-bit field of a type-2 feedback payload, in `EXT_FB_LAYOUT`'s byte order (rule R220). -/
def fbField (layout : Config.FbLayout) (data : List Byte) (i : Nat) : U16 :=
  if layout.bigEndian then be16 data i else le16 data i

/-- `EXT_DEC_DEVICE_ID`'s results or error (rule R217). -/
def decDeviceId (id : U32) (data : List Byte) : Except Error Result :=
  if data.length ≠ constants.canDlc then .error (.length data.length)
  else .ok (.deviceId (inboundAddress id) (be64 data 0))

/-- `FEEDBACK16(data)` (rule R220), with the identifier fields of rule R218. -/
def feedback16 (layout : Config.FbLayout) (id : U32) (data : List Byte) : Result :=
  .extFeedback (inboundAddress id) (inboundFaultBits id) (inboundModeStatus id)
    (decodeIn pos16 ((fbField layout data layout.angleAt).zeroExtend 32))
    (decodeIn vel16 ((fbField layout data layout.velocityAt).zeroExtend 32))
    (decodeIn tq16 ((fbField layout data layout.torqueAt).zeroExtend 32))
    (tenths (fbField layout data layout.temperatureAt))

/-- `EXT_DEC_FEEDBACK`'s results or error (rule R218's pseudocode). -/
def decFeedback (id : U32) (data : List Byte) : Except Error Result :=
  if data.length ≠ constants.canDlc then .error (.length data.length)
  else if slice data 0 constants.versionReply.length = constants.versionReply then
    .ok (.extVersion (inboundAddress id) (inboundFaultBits id) (inboundModeStatus id)
      (byteAt data 3) (byteAt data 4) (byteAt data 5) (byteAt data 6))
  else .ok (feedback16 extFbLayout id data)

/-- `EXT_DEC_PARAM_READ`'s results or error (rule R221). -/
def decParamRead (id : U32) (data : List Byte) : Except Error Result :=
  if data.length ≠ constants.canDlc then .error (.length data.length)
  else
    .ok (.paramRead (le16 data 0) (decide ((extAux id).extractLsb' 8 8 = 0x00#8)) (slice data 4 8)
      (le32 data 4) (le32 data 4))

/-- `EXT_DEC_FAULT`'s result or error (rule R222). -/
def decFault (data : List Byte) : Except Error Result :=
  if data.length ≠ constants.canDlc then .error (.length data.length) else .ok (.faultWord (le32 data 0))

/-- The mask of the named fault bits (rule R223). -/
def faultMask : U32 :=
  constants.faultBits.foldl (fun m i => m ||| 1#32 <<< i) 0

/-- The number of set bits of a word. -/
def popcount (w : U32) : Nat :=
  (List.range 32).countP fun i => w.getLsbD i

/-- The matched fault names "in table order" (rule R223), from the OPEN parameters of decision D30. They
are no result port of rule R61, so no operation returns them. -/
def matchedNames (word : U32) : List String :=
  (Config.faultTableOrder.filter fun i => (word &&& faultMask).getLsbD i).map Config.faultName

/-- `EXT_GET_DEVICE_ID requester, target` (rule R202). -/
def execExtGetDeviceId (requester target : Byte) (s : State) : Host.Outcome State Fault Refusal :=
  succeed (extBuild constants.typeDeviceId (requesterAux requester) target (canPayload [])) s

/-- `EXT_ENABLE requester, target` (rule R203). -/
def execExtEnable (requester target : Byte) (s : State) : Host.Outcome State Fault Refusal :=
  succeed (extBuild constants.typeEnable (requesterAux requester) target (canPayload [])) s

/-- `EXT_STOP requester, target, clear_fault` (rule R204). -/
def execExtStop (requester target : Byte) (clearFault : Bool) (s : State) :
    Host.Outcome State Fault Refusal :=
  succeed (extBuild constants.typeStop (requesterAux requester) target
    (canPayload [if clearFault then 0x01 else 0x00])) s

/-- `EXT_SET_ZERO requester, target` (rule R205). -/
def execExtSetZero (requester target : Byte) (s : State) : Host.Outcome State Fault Refusal :=
  succeed (extBuild constants.typeSetZero (requesterAux requester) target (canPayload [0x01])) s

/-- `EXT_SET_ADDR requester, target, new_id` (rule R206): aux16 is `new_id << 8 | requester`. -/
def execExtSetAddr (requester target newId : Byte) (s : State) : Host.Outcome State Fault Refusal :=
  succeed (extBuild constants.typeSetAddr (newId.zeroExtend 16 <<< 8 ||| requester.zeroExtend 16) target
    (canPayload [])) s

/-- `EXT_PARAM_READ requester, target, index` (rule R207). -/
def execExtParamRead (requester target : Byte) (index : U16) (s : State) :
    Host.Outcome State Fault Refusal :=
  succeed (extBuild constants.typeParamRead (requesterAux requester) target
    (canPayload (bytesLe index 2))) s

/-- `EXT_PARAM_WRITE requester, target, index, value` (rule R208). -/
def execExtParamWrite (requester target : Byte) (index : U16) (value : ParamValue) (s : State) :
    Host.Outcome State Fault Refusal :=
  finish (paramWrite requester target index value) s

/-- `EXT_FAULT_REQ requester, target` (rule R209). -/
def execExtFaultReq (requester target : Byte) (s : State) : Host.Outcome State Fault Refusal :=
  succeed (extBuild constants.typeFault (requesterAux requester) target (canPayload [])) s

/-- `EXT_SAVE_PARAMS requester, target` (rule R210). -/
def execExtSaveParams (requester target : Byte) (s : State) : Host.Outcome State Fault Refusal :=
  succeed (extBuild constants.typeSaveParams (requesterAux requester) target constants.saveMagic) s

/-- `EXT_SET_BAUD requester, target, code` (rule R211). -/
def execExtSetBaud (requester target code : Byte) (s : State) : Host.Outcome State Fault Refusal :=
  succeed (extBuild constants.typeSetBaud (requesterAux requester) target (prefixed code)) s

/-- `EXT_SET_ACTIVE_REPORT requester, target, flag` (rule R212). -/
def execExtSetActiveReport (requester target flag : Byte) (s : State) :
    Host.Outcome State Fault Refusal :=
  succeed (extBuild constants.typeActiveReport (requesterAux requester) target (prefixed flag)) s

/-- `EXT_SET_PROTOCOL requester, target, code` (rule R213). -/
def execExtSetProtocol (requester target code : Byte) (s : State) : Host.Outcome State Fault Refusal :=
  succeed (extBuild constants.typeSetProtocol (requesterAux requester) target (prefixed code)) s

/-- `EXT_READ_VERSION requester, target` (rule R214): the type of `EXT_STOP`, told apart by bytes 0..1. -/
def execExtReadVersion (requester target : Byte) (s : State) : Host.Outcome State Fault Refusal :=
  succeed (extBuild constants.typeStop (requesterAux requester) target
    (canPayload constants.versionRequest)) s

/-- `EXT_CLASSIFY id` (rule R216). -/
def execExtClassify (id : U32) (s : State) : Host.Outcome State Fault Refusal :=
  succeed (.decoder (extClassify id)) s

/-- `EXT_DEC_DEVICE_ID id, data` (rule R217). -/
def execExtDecDeviceId (id : U32) (data : List Byte) (s : State) : Host.Outcome State Fault Refusal :=
  finish (decDeviceId id data) s

/-- `EXT_DEC_FEEDBACK id, data` (rule R218). -/
def execExtDecFeedback (id : U32) (data : List Byte) (s : State) : Host.Outcome State Fault Refusal :=
  finish (decFeedback id data) s

/-- `EXT_DEC_PARAM_READ id, data` (rule R221). -/
def execExtDecParamRead (id : U32) (data : List Byte) (s : State) : Host.Outcome State Fault Refusal :=
  finish (decParamRead id data) s

/-- `EXT_DEC_FAULT data` (rule R222). -/
def execExtDecFault (data : List Byte) (s : State) : Host.Outcome State Fault Refusal :=
  finish (decFault data) s

/-- `FAULT_MATCH word` (rule R223). -/
def execFaultMatch (word : U32) (s : State) : Host.Outcome State Fault Refusal :=
  succeed (.faultMatch word (word &&& faultMask) (BitVec.ofNat 8 (popcount (word &&& faultMask)))) s

end Sys2Proof.Machine
end

