-- ==== Sys2Proof/Machine/Crc.lean ====
section
/-! DEFINITION. The CRC-16 checksum generator (41_crc.md). -/

namespace Sys2Proof.Machine

/-- One of rule R100's eight shifts: XOR with the polynomial if the top bit was set before the shift. -/
def crcShift (c : U16) : U16 :=
  if c.msb then (c <<< 1) ^^^ constants.crcPoly else c <<< 1

/-- `CRC16_BYTE` (rule R100): the byte enters the high byte, most significant bit first. -/
def crcByte (c : U16) (b : Byte) : U16 :=
  crcShift^[8] (c ^^^ (b.zeroExtend 16 <<< 8))

/-- `CRC16` (rule R101): the left fold of rule R100 over the bytes. -/
def crc16 (seed : U16) (bytes : List Byte) : U16 :=
  bytes.foldl crcByte seed

/-- `CRC16 seed, bytes` (rule R101). -/
def execCrc16 (seed : U16) (bytes : List Byte) (s : State) : Host.Outcome State Fault Refusal :=
  succeed (.crc (crc16 seed bytes)) s

/-- `CRC16_BYTE crc, b` (rule R100). -/
def execCrc16Byte (crc : U16) (b : Byte) (s : State) : Host.Outcome State Fault Refusal :=
  succeed (.crc (crcByte crc b)) s

end Sys2Proof.Machine
end

