-- ==== Sys2Proof/Machine/Framer.lean ====
section
/-! DEFINITION. The frame synchronizer and length-delimited framer (42_framer.md). -/

namespace Sys2Proof.Machine

/-- `RECORD_GATE(P)` (rule R116). -/
def recordGate (payload : List Byte) : Bool :=
  decide (byteAt payload 0 = constants.recordTag) && decide (constants.recordLen ≤ payload.length)

/-- The record a frame event delivers (rule R116): the payload's first 76 bytes when the gate is true; the
source's "completed record" (rule R110). -/
def Event.record : Event → Option (List Byte)
  | .none => Option.none
  | .frame payload isRecord => if isRecord then some (slice payload 0 constants.recordLen) else Option.none
  | .crcError _ _ => Option.none

/-- The telemetry frame's checksum (rule R103): seed zero, over the first four header bytes and the
payload. -/
def frameCrc (header payload : List Byte) : U16 :=
  crc16 constants.frameCrcSeed (header ++ payload)

/-- `FRM_FEED` in `WAIT_SYNC1` (rule R112). -/
def feedWaitSync1 (b : Byte) (s : State) : State × Event :=
  if b = constants.sync1 then
    ({ s with fs := { s.fs.store 0 b with count := 1, phase := .waitSync2 } }, .none)
  else (s, .none)

/-- `FRM_FEED` in `WAIT_SYNC2` (rule R113): a rejected byte is not retried as `SYNC1`. -/
def feedWaitSync2 (b : Byte) (s : State) : State × Event :=
  if b = constants.sync2 then
    ({ s with fs := { s.fs.store 1 b with count := 2, phase := .readHeader } }, .none)
  else (resetFs s, .none)

/-- `FRM_FEED` in `READ_HEADER` (rule R114): the length is judged when the sixth header byte is in. -/
def feedReadHeader (b : Byte) (s : State) : State × Event :=
  let fs := s.fs.push b
  if fs.count.toNat = constants.hdrLen then
    let len := le16 fs.bytes 2
    if len = 0 ∨ constants.maxFrame < constants.hdrLen + len.toNat then (resetFs s, .none)
    else ({ s with fs := { fs with len := len, phase := .readPayload } }, .none)
  else ({ s with fs := fs }, .none)

/-- `FRM_FEED` in `READ_PAYLOAD` (rule R115): at the frame's last byte the checksum decides the event, and
the synchronizer resets either way. -/
def feedReadPayload (b : Byte) (s : State) : State × Event :=
  let fs := s.fs.push b
  if fs.count.toNat = constants.hdrLen + fs.len.toNat then
    let payload := slice fs.bytes constants.hdrLen (constants.hdrLen + fs.len.toNat)
    let computed := frameCrc (slice fs.bytes 0 4) payload
    let received := le16 fs.bytes 4
    (resetFs s,
      if computed = received then .frame payload (recordGate payload) else .crcError computed received)
  else ({ s with fs := fs }, .none)

/-- The step of the synchronizer for one byte (rule R111). -/
def feedByte (b : Byte) (s : State) : State × Event :=
  match s.fs.phase with
  | .waitSync1 => feedWaitSync1 b s
  | .waitSync2 => feedWaitSync2 b s
  | .readHeader => feedReadHeader b s
  | .readPayload => feedReadPayload b s

/-- The steps for a sequence of bytes, with every event other than `EV_NONE` in order (rule R117). -/
def feedBytes : List Byte → State → State × List Event
  | [], s => (s, [])
  | b :: bs, s =>
    let first := feedByte b s
    let rest := feedBytes bs first.1
    (rest.1, if first.2 = .none then rest.2 else first.2 :: rest.2)

/-- The telemetry frame of a payload (rules R65, R118), whose length is within the rule's limits. -/
def frameOf (payload : List Byte) : List Byte :=
  let h := [constants.sync1, constants.sync2] ++ bytesLe (BitVec.ofNat 16 payload.length) 2
  h ++ bytesLe (frameCrc h payload) 2 ++ payload

/-- `FRM_ENCODE`'s result or error (rule R118's pseudocode). -/
def encodeFrame (payload : List Byte) : Except Error Result :=
  if payload.length = 0 ∨ constants.maxFrame - constants.hdrLen < payload.length then
    .error (.length payload.length)
  else .ok (.frame (frameOf payload))

/-- `FRM_FEED b` (rule R111). -/
def execFrmFeed (b : Byte) (s : State) : Host.Outcome State Fault Refusal :=
  succeed (.event (feedByte b s).2) (feedByte b s).1

/-- `FRM_FEED_BATCH bytes` (rule R117). -/
def execFrmFeedBatch (bytes : List Byte) (s : State) : Host.Outcome State Fault Refusal :=
  succeed (.events (feedBytes bytes s).2) (feedBytes bytes s).1

/-- `FRM_ENCODE payload` (rule R118). -/
def execFrmEncode (payload : List Byte) (s : State) : Host.Outcome State Fault Refusal :=
  finish (encodeFrame payload) s

/-- `FRM_RESET` (rule R119). -/
def execFrmReset (s : State) : Host.Outcome State Fault Refusal :=
  succeed .empty (resetFs s)

end Sys2Proof.Machine
end

