-- ==== Sys2Proof/Machine/StdDialect.lean ====
section
/-! DEFINITION. The payload marshaller of the standard dialect (45_std_dialect.md). -/

namespace Sys2Proof.Machine

/-- The payloads of rule R180's table: `FF×6`, byte 6, byte 7. -/
def stdPayload (b6 b7 : Byte) : List Byte :=
  List.replicate 6 0xFF ++ [b6, b7]

/-- Two little-endian binary32 patterns (rules R189, R190). -/
def rawFloats (x y : F32) : List Byte :=
  bytesLe x 4 ++ bytesLe y 4

/-- `STD_FB_DECODE`'s results or error (rule R191's pseudocode and bit table). -/
def stdFeedback (data : List Byte) : Except Error Result :=
  if data.length ≠ constants.canDlc then .error (.length data.length)
  else
    let angleRaw : U16 := byteAt data 1 ++ byteAt data 2
    let velocityRaw : BitVec 12 := byteAt data 3 ++ (byteAt data 4).extractLsb' 4 4
    let torqueRaw : BitVec 12 := (byteAt data 4).extractLsb' 0 4 ++ byteAt data 5
    .ok (.stdFeedback (byteAt data 0)
      (decodeIn pos16 (angleRaw.zeroExtend 32))
      (decodeIn vel12 (velocityRaw.zeroExtend 32))
      (decodeIn tq12 (torqueRaw.zeroExtend 32))
      (tenths (be16 data 6)))

/-- `STD_ENABLE` (rule R181). -/
def execStdEnable (s : State) : Host.Outcome State Fault Refusal :=
  succeed (.data (stdPayload 0xFF 0xFC)) s

/-- `STD_STOP` (rule R182). -/
def execStdStop (s : State) : Host.Outcome State Fault Refusal :=
  succeed (.data (stdPayload 0xFF 0xFD)) s

/-- `STD_SET_ZERO` (rule R183). -/
def execStdSetZero (s : State) : Host.Outcome State Fault Refusal :=
  succeed (.data (stdPayload 0xFF 0xFE)) s

/-- `STD_FAULT code` (rule R184). -/
def execStdFault (code : Byte) (s : State) : Host.Outcome State Fault Refusal :=
  succeed (.data (stdPayload code 0xFB)) s

/-- `STD_SET_MODE m` (rule R185). -/
def execStdSetMode (m : Byte) (s : State) : Host.Outcome State Fault Refusal :=
  succeed (.data (stdPayload m 0xFC)) s

/-- `STD_SET_MOTOR_ADDR id` (rule R186). -/
def execStdSetMotorAddr (id : Byte) (s : State) : Host.Outcome State Fault Refusal :=
  succeed (.data (stdPayload id 0xFA)) s

/-- `STD_SET_PROTOCOL p` (rule R187). -/
def execStdSetProtocol (p : Byte) (s : State) : Host.Outcome State Fault Refusal :=
  succeed (.data (stdPayload p 0xFD)) s

/-- `STD_SET_MASTER_ADDR id` (rule R188): the operand is byte 7, and byte 6 is `FD`. -/
def execStdSetMasterAddr (id : Byte) (s : State) : Host.Outcome State Fault Refusal :=
  succeed (.data (stdPayload 0xFD id)) s

/-- `STD_POSITION target_pos, max_speed` (rule R189). -/
def execStdPosition (targetPos maxSpeed : F32) (s : State) : Host.Outcome State Fault Refusal :=
  succeed (.data (rawFloats targetPos maxSpeed)) s

/-- `STD_SPEED target_speed, current_limit` (rule R190). -/
def execStdSpeed (targetSpeed currentLimit : F32) (s : State) : Host.Outcome State Fault Refusal :=
  succeed (.data (rawFloats targetSpeed currentLimit)) s

/-- `STD_FB_DECODE data` (rule R191). -/
def execStdFbDecode (data : List Byte) (s : State) : Host.Outcome State Fault Refusal :=
  finish (stdFeedback data) s

end Sys2Proof.Machine
end

