-- ==== Sys2Proof/Machine/Dispatch.lean ====
section
/-! DEFINITION. The meaning of each operation of rule R61, one arm per operation. -/

namespace Sys2Proof.Machine

def exec (i : Instr) (s : State) : Host.Outcome State Fault Refusal :=
  match i with
  | .crc16 seed bytes => Sys2Proof.Machine.execCrc16 seed bytes s
  | .crc16Byte crc b => Sys2Proof.Machine.execCrc16Byte crc b s
  | .frmFeed b => Sys2Proof.Machine.execFrmFeed b s
  | .frmFeedBatch bytes => Sys2Proof.Machine.execFrmFeedBatch bytes s
  | .frmEncode payload => Sys2Proof.Machine.execFrmEncode payload s
  | .frmReset => Sys2Proof.Machine.execFrmReset s
  | .qEncode x min max bits => Sys2Proof.Machine.execQEncode x min max bits s
  | .qDecode u min max bits => Sys2Proof.Machine.execQDecode u min max bits s
  | .canBuildStd id data => Sys2Proof.Machine.execCanBuildStd id data s
  | .canBuildExt id data => Sys2Proof.Machine.execCanBuildExt id data s
  | .canParse frame => Sys2Proof.Machine.execCanParse frame s
  | .canClassify info => Sys2Proof.Machine.execCanClassify info s
  | .idMakeStd mode address => Sys2Proof.Machine.execIdMakeStd mode address s
  | .idMakeExt commandType aux16 target => Sys2Proof.Machine.execIdMakeExt commandType aux16 target s
  | .idParseExt id => Sys2Proof.Machine.execIdParseExt id s
  | .stdEnable => Sys2Proof.Machine.execStdEnable s
  | .stdStop => Sys2Proof.Machine.execStdStop s
  | .stdSetZero => Sys2Proof.Machine.execStdSetZero s
  | .stdFault code => Sys2Proof.Machine.execStdFault code s
  | .stdSetMode m => Sys2Proof.Machine.execStdSetMode m s
  | .stdSetMotorAddr id => Sys2Proof.Machine.execStdSetMotorAddr id s
  | .stdSetProtocol p => Sys2Proof.Machine.execStdSetProtocol p s
  | .stdSetMasterAddr id => Sys2Proof.Machine.execStdSetMasterAddr id s
  | .stdPosition targetPos maxSpeed => Sys2Proof.Machine.execStdPosition targetPos maxSpeed s
  | .stdSpeed targetSpeed currentLimit => Sys2Proof.Machine.execStdSpeed targetSpeed currentLimit s
  | .stdFbDecode data => Sys2Proof.Machine.execStdFbDecode data s
  | .extGetDeviceId requester target => Sys2Proof.Machine.execExtGetDeviceId requester target s
  | .extEnable requester target => Sys2Proof.Machine.execExtEnable requester target s
  | .extStop requester target clearFault => Sys2Proof.Machine.execExtStop requester target clearFault s
  | .extSetZero requester target => Sys2Proof.Machine.execExtSetZero requester target s
  | .extSetAddr requester target newId => Sys2Proof.Machine.execExtSetAddr requester target newId s
  | .extParamRead requester target index => Sys2Proof.Machine.execExtParamRead requester target index s
  | .extParamWrite requester target index value => Sys2Proof.Machine.execExtParamWrite requester target index value s
  | .extFaultReq requester target => Sys2Proof.Machine.execExtFaultReq requester target s
  | .extSaveParams requester target => Sys2Proof.Machine.execExtSaveParams requester target s
  | .extSetBaud requester target code => Sys2Proof.Machine.execExtSetBaud requester target code s
  | .extSetActiveReport requester target flag => Sys2Proof.Machine.execExtSetActiveReport requester target flag s
  | .extSetProtocol requester target code => Sys2Proof.Machine.execExtSetProtocol requester target code s
  | .extReadVersion requester target => Sys2Proof.Machine.execExtReadVersion requester target s
  | .extClassify id => Sys2Proof.Machine.execExtClassify id s
  | .extDecDeviceId id data => Sys2Proof.Machine.execExtDecDeviceId id data s
  | .extDecFeedback id data => Sys2Proof.Machine.execExtDecFeedback id data s
  | .extDecParamRead id data => Sys2Proof.Machine.execExtDecParamRead id data s
  | .extDecFault data => Sys2Proof.Machine.execExtDecFault data s
  | .faultMatch word => Sys2Proof.Machine.execFaultMatch word s

end Sys2Proof.Machine
end

