-- ==== Sys2Proof/Machine/Step.lean ====
section
/-! DEFINITION. One step: the block performs the host's next request (rules R47, R60, R62, R63). -/

namespace Sys2Proof.Machine

/-- The block performs one request. With no request issued it is idle and nothing changes. An unassigned
code raises `ERR_ILLEGAL_OP` (rules R62, R242). -/
def step (s : State) : Host.Outcome State Fault Refusal :=
  match s.pending with
  | [] => .next s
  | r :: rest =>
    match decode r with
    | .instr i => exec i { s with pending := rest }
    | .unassignedOp _ => raise .illegalOp { s with pending := rest }
    | .operandTypes op => .fault (.operandTypes op)

/-- The state in which the host issues next the request of a row of spec/opcode_table.json, with its
operand record zero, ahead of the requests already pending. -/
def State.withFetchWord (s : State) (nbits w : Nat) : State :=
  if nbits = 8 then { s with pending := zeroRequest (BitVec.ofNat 8 w) :: s.pending } else s

end Sys2Proof.Machine
end

