-- ==== Sys2Proof/Machine/Flags.lean ====
section
/-! DEFINITION. The block has no flags (rule R23). What an operation reports is its status (rule R240):
the status codes stand here, where another machine's flags would, with the phase numbers of rule R24. -/

namespace Sys2Proof.Machine

/-- The 2-bit value of a phase (rule R24). No operation shows it. -/
def Phase.code : Phase → BitVec 2
  | .waitSync1 => 0
  | .waitSync2 => 1
  | .readHeader => 2
  | .readPayload => 3

/-- The status codes of rule R240's table. -/
inductive Status where
  | ok
  | errIllegalOp
  | errLength
  | errRange
  | errDomain
  | errType
  deriving DecidableEq, Repr

/-- The numeric code of a status (rule R240). -/
def Status.code : Status → Nat
  | .ok => 0
  | .errIllegalOp => 1
  | .errLength => 2
  | .errRange => 3
  | .errDomain => 4
  | .errType => 5

/-- The status of an error. -/
def Error.status : Error → Status
  | .illegalOp => .errIllegalOp
  | .length _ => .errLength
  | .range _ => .errRange
  | .domain _ => .errDomain
  | .type _ => .errType

/-- The one status an operation ends with (rules R31, R240). -/
def Answer.status : Answer → Status
  | .ok _ => .ok
  | .error e => e.status

end Sys2Proof.Machine
end

