-- ==== Sys2Proof/Machine/Pseudo.lean ====
section
/-! DEFINITION. The pseudo-operations of rule R71: the host's own chains of operations. They add no
semantics; `FRM_FEED_BATCH`, the fourth of the table, is an operation. -/

namespace Sys2Proof.Machine

/-- The host reads the results of an operation that ended with `OK` and goes on; an operation that ended
with an error ends the chain (DEDUCED, safe: notes/assumptions/19.md). -/
def chain (o : Host.Outcome State Fault Refusal)
    (next : Result → State → Host.Outcome State Fault Refusal) : Host.Outcome State Fault Refusal :=
  match o with
  | .next s =>
    match s.answer with
    | some (.ok r) => next r s
    | some (.error _) => .next s
    | none => .next s
  | .fault e => .fault e
  | .refused e => .refused e

/-- `SEND_STD mode, addr, CMD args` (rule R71); `cmd` is a standard builder. -/
def sendStd (mode address : Byte) (cmd : Instr) (s : State) : Host.Outcome State Fault Refusal :=
  chain (exec (.idMakeStd mode address) s) fun r s =>
    match r with
    | .id i =>
      chain (exec cmd s) fun r s =>
        match r with
        | .data d => exec (.canBuildStd i d) s
        | _ => .next s
    | _ => .next s

/-- `SEND_EXT CMD args` (rule R71); `cmd` is an extended builder. -/
def sendExt (cmd : Instr) (s : State) : Host.Outcome State Fault Refusal :=
  chain (exec cmd s) fun r s =>
    match r with
    | .idData i d => exec (.canBuildExt i d) s
    | _ => .next s

/-- The decoder `EXT_CLASSIFY` names, applied to the parsed frame (rules R71, R216); `RAW` names none. -/
def decodeExt (d : ExtDecoder) (id : U32) (data : List Byte) (s : State) :
    Host.Outcome State Fault Refusal :=
  match d with
  | .deviceId => exec (.extDecDeviceId id data) s
  | .feedback => exec (.extDecFeedback id data) s
  | .paramRead => exec (.extDecParamRead id data) s
  | .fault => exec (.extDecFault data) s
  | .raw => .next s

/-- `RECV frame` (rule R71). -/
def recv (frame : List Byte) (s : State) : Host.Outcome State Fault Refusal :=
  chain (exec (.canParse frame) s) fun r s =>
    match r with
    | .canFrame info id data =>
      chain (exec (.canClassify info) s) fun r s =>
        match r with
        | .kind .stdData => exec (.stdFbDecode data) s
        | .kind .extData =>
          chain (exec (.extClassify id) s) fun r s =>
            match r with
            | .decoder d => decodeExt d id data s
            | _ => .next s
        | _ => .next s
    | _ => .next s

end Sys2Proof.Machine
end

