-- ==== Sys2Proof/WellFormed.lean ====
section
/-! DEFINITION. The operand limits narrower than the operand types (rules R63 and R243): the lengths and
integer ranges that an operation's rule names. A request outside them is still a request; its operation
ends with `ERR_LENGTH` or `ERR_RANGE`. -/

namespace Sys2Proof

open Sys2Proof.Machine (constants)

/-- The numeric ranges of rule R64, by tag. -/
def ParamValue.inRange : ParamValue → Bool
  | .u8 n => decide (0 ≤ n) && decide (n ≤ 0xFF)
  | .u16 n => decide (0 ≤ n) && decide (n ≤ 0xFFFF)
  | .u32 n => decide (0 ≤ n) && decide (n ≤ 0xFFFFFFFF)
  | .i16 n => decide (-32768 ≤ n) && decide (n ≤ 32767)
  | .f32 _ => true
  | .string _ => true

/-- The lengths of the operations' rules: R118, R161, R162, R163, R191, R217, R218, R221, R222. -/
def Instr.lengthsOk : Instr → Bool
  | .crc16 _ _ => true
  | .crc16Byte _ _ => true
  | .frmFeed _ => true
  | .frmFeedBatch _ => true
  | .frmEncode payload =>
    decide (1 ≤ payload.length) && decide (payload.length ≤ constants.maxFrame - constants.hdrLen)
  | .frmReset => true
  | .qEncode _ _ _ _ => true
  | .qDecode _ _ _ _ => true
  | .canBuildStd _ data => decide (data.length = constants.canDlc)
  | .canBuildExt _ data => decide (data.length = constants.canDlc)
  | .canParse frame => decide (frame.length = constants.canFrameLen)
  | .canClassify _ => true
  | .idMakeStd _ _ => true
  | .idMakeExt _ _ _ => true
  | .idParseExt _ => true
  | .stdEnable => true
  | .stdStop => true
  | .stdSetZero => true
  | .stdFault _ => true
  | .stdSetMode _ => true
  | .stdSetMotorAddr _ => true
  | .stdSetProtocol _ => true
  | .stdSetMasterAddr _ => true
  | .stdPosition _ _ => true
  | .stdSpeed _ _ => true
  | .stdFbDecode data => decide (data.length = constants.canDlc)
  | .extGetDeviceId _ _ => true
  | .extEnable _ _ => true
  | .extStop _ _ _ => true
  | .extSetZero _ _ => true
  | .extSetAddr _ _ _ => true
  | .extParamRead _ _ _ => true
  | .extParamWrite _ _ _ _ => true
  | .extFaultReq _ _ => true
  | .extSaveParams _ _ => true
  | .extSetBaud _ _ _ => true
  | .extSetActiveReport _ _ _ => true
  | .extSetProtocol _ _ _ => true
  | .extReadVersion _ _ => true
  | .extClassify _ => true
  | .extDecDeviceId _ data => decide (data.length = constants.canDlc)
  | .extDecFeedback _ data => decide (data.length = constants.canDlc)
  | .extDecParamRead _ data => decide (data.length = constants.canDlc)
  | .extDecFault data => decide (data.length = constants.canDlc)
  | .faultMatch _ => true

/-- The integer ranges of the operations' rules: R145, R144, R161, R162, R165, R208. -/
def Instr.rangesOk : Instr → Bool
  | .crc16 _ _ => true
  | .crc16Byte _ _ => true
  | .frmFeed _ => true
  | .frmFeedBatch _ => true
  | .frmEncode _ => true
  | .frmReset => true
  | .qEncode _ _ _ bits => decide (1 ≤ bits.toNat) && decide (bits.toNat ≤ 16)
  | .qDecode u _ _ bits =>
    decide (1 ≤ bits.toNat) && decide (bits.toNat ≤ 16) && decide (u.toNat < 2 ^ bits.toNat)
  | .canBuildStd id _ => decide (id.toNat ≤ 0x7FF)
  | .canBuildExt id _ => decide (id.toNat ≤ 0x1FFFFFFF)
  | .canParse _ => true
  | .canClassify _ => true
  | .idMakeStd mode _ => decide (mode.toNat < 8)
  | .idMakeExt _ _ _ => true
  | .idParseExt _ => true
  | .stdEnable => true
  | .stdStop => true
  | .stdSetZero => true
  | .stdFault _ => true
  | .stdSetMode _ => true
  | .stdSetMotorAddr _ => true
  | .stdSetProtocol _ => true
  | .stdSetMasterAddr _ => true
  | .stdPosition _ _ => true
  | .stdSpeed _ _ => true
  | .stdFbDecode _ => true
  | .extGetDeviceId _ _ => true
  | .extEnable _ _ => true
  | .extStop _ _ _ => true
  | .extSetZero _ _ => true
  | .extSetAddr _ _ _ => true
  | .extParamRead _ _ _ => true
  | .extParamWrite _ _ _ value => value.inRange
  | .extFaultReq _ _ => true
  | .extSaveParams _ _ => true
  | .extSetBaud _ _ _ => true
  | .extSetActiveReport _ _ _ => true
  | .extSetProtocol _ _ _ => true
  | .extReadVersion _ _ => true
  | .extClassify _ => true
  | .extDecDeviceId _ _ => true
  | .extDecFeedback _ _ => true
  | .extDecParamRead _ _ => true
  | .extDecFault _ => true
  | .faultMatch _ => true

/-- Every length and range limit of the operation's rule is met. An operation whose rule says
"Errors: none" has no limit. -/
def Instr.wellFormed (i : Instr) : Bool :=
  i.lengthsOk && i.rangesOk

end Sys2Proof
end

