-- ==== Sys2Proof/Safety.lean ====
section
/-! DEFINITION. The terms the statements are made in: which operations use `FS`, the invariant of rule R28,
the widths of the result ports, and what "correctly rounded to nearest, ties to even" means (rule R140). -/

namespace Sys2Proof

/-- The three operations that are not pure (rule R49): `FRM_FEED`, `FRM_FEED_BATCH`, `FRM_RESET`. -/
def Instr.usesFs (i : Instr) : Bool :=
  decide ((encode i).op ∈ [0x10#8, 0x11#8, 0x13#8])

namespace Machine

/-- The combinations of rule R28's table. -/
def Fs.Inv (fs : Fs) : Prop :=
  match fs.phase with
  | .waitSync1 => fs.count.toNat = 0
  | .waitSync2 => fs.count.toNat = 1 ∧ fs.buf[0] = 0x5A
  | .readHeader => 2 ≤ fs.count.toNat ∧ fs.count.toNat ≤ 5 ∧ fs.buf[0] = 0x5A ∧ fs.buf[1] = 0xA5
  | .readPayload =>
    6 ≤ fs.count.toNat ∧ fs.count.toNat ≤ 5 + fs.len.toNat ∧
      1 ≤ fs.len.toNat ∧ fs.len.toNat ≤ 506 ∧
      fs.buf[0] = 0x5A ∧ fs.buf[1] = 0xA5 ∧ fs.len = fs.buf[3] ++ fs.buf[2]

/-- The event fields of rule R110's table. -/
def Event.Wf : Event → Prop
  | .none => True
  | .frame payload isRecord =>
    1 ≤ payload.length ∧ payload.length ≤ 506 ∧
      (isRecord = true ↔ payload[0]? = some 0x91 ∧ 76 ≤ payload.length)
  | .crcError computed received => computed ≠ received

/-- The sizes of the result ports in rule R61's results column. -/
def Result.Wf : Result → Prop
  | .empty => True
  | .crc _ => True
  | .event e => e.Wf
  | .events es => ∀ e ∈ es, e ≠ .none ∧ e.Wf
  | .frame f => 7 ≤ f.length ∧ f.length ≤ 512
  | .code _ => True
  | .value _ => True
  | .canFrame _ _ d => d.length = 8
  | .kind _ => True
  | .id i => i.toNat < 2 ^ 29
  | .idFields commandType _ _ => commandType.toNat < 32
  | .data d => d.length = 8
  | .stdFeedback _ _ _ _ _ => True
  | .idData i d => i.toNat < 2 ^ 29 ∧ d.length = 8
  | .decoder _ => True
  | .deviceId _ _ => True
  | .extFeedback _ _ _ _ _ _ _ => True
  | .extVersion _ _ _ _ _ _ _ => True
  | .paramRead _ _ raw _ asU32 => raw.length = 4 ∧ raw = bytesLe asU32 4
  | .faultWord _ => True
  | .faultMatch raw matched count =>
    matched = raw &&& 0x000143BF ∧ count.toNat = popcount matched ∧ count.toNat ≤ 11

/-- The state between two operations: rule R28's table, and result ports of their sizes. -/
def State.Inv (s : State) : Prop :=
  s.fs.Inv ∧ ∀ r, s.answer = some (.ok r) → r.Wf

/-- Two synchronizer states that differ at most in what the spec leaves without a defined value: the bytes
of `FS.buf` at `FS.count` and above (rule R27), and `FS.len` outside `READ_PAYLOAD` (rule R26). -/
def Fs.Agree (a b : Fs) : Prop :=
  a.phase = b.phase ∧ a.count = b.count ∧ (a.phase = .readPayload → a.len = b.len) ∧
    ∀ k, k < a.count.toNat → a.buf[k]? = b.buf[k]?

/-- The number a finite datum stands for. -/
def Fp.value (f : Format) : Fp → Option ℚ
  | .nan => none
  | .inf _ => none
  | .fin neg m => some ((signed neg m : ℚ) / 2 ^ f.unit)

/-- `v` is a finite number of the format: a significand of `frac + 1` bits at some exponent. -/
def Format.IsFloat (f : Format) (v : ℚ) : Prop :=
  ∃ (neg : Bool) (t q : ℕ), q < 2 ^ (f.frac + 1) ∧ t * 2 ^ f.frac + q < f.infCode ∧
    v = (signed neg (q * 2 ^ t) : ℚ) / 2 ^ f.unit

/-- `v` is a finite number of the format whose significand, as it is encoded, is even. -/
def Format.IsEven (f : Format) (v : ℚ) : Prop :=
  ∃ (neg : Bool) (t q : ℕ), q < 2 ^ (f.frac + 1) ∧ (t = 0 ∨ 2 ^ f.frac ≤ q) ∧ q % 2 = 0 ∧
    v = (signed neg (q * 2 ^ t) : ℚ) / 2 ^ f.unit

/-- `r` is `v` correctly rounded to nearest, ties to even, among the finite numbers of the format. -/
def Format.Nearest (f : Format) (v r : ℚ) : Prop :=
  f.IsFloat r ∧ (∀ y, f.IsFloat y → |r - v| ≤ |y - v|) ∧
    (∀ y, f.IsFloat y → y ≠ r → |r - v| = |y - v| → f.IsEven r)

/-- The number a binary32 pattern stands for, if it is finite. -/
def value32 (w : F32) : Option ℚ :=
  (unpack32 w).value binary32

end Machine

end Sys2Proof
end

