-- ==== Sys2Proof/Certificates/Slice0/Obligations.lean ====
section
/-! DEFINITION. The statements for the provers. Each docstring names the rules of spec/ it formalises. -/

open Sys2Proof Sys2Proof.Machine

/-! The machine: requests, decoding, reset and the invariant. -/

/-- The model's own interface for R60 (the host's list of requests and the idle step are the model's choice,
notes/assumptions/5.md): with a well-typed request at the head of the host's list, `step` takes it off the
list and runs its operation; with no request, nothing changes. -/
def Obligations.StepRunsTheDecodedOperation : Prop :=
  (∀ (s : State) (r : Request) (rest : List Request) (i : Instr),
    s.pending = r :: rest → decode r = .instr i → step s = exec i { s with pending := rest }) ∧
  ∀ s : State, s.pending = [] → step s = .next s

/-- R62, R242: a code outside the table of R61 ends with `ERR_ILLEGAL_OP`, whatever its operands, and
writes no state. -/
def Obligations.UnassignedCodeRaisesIllegalOp : Prop :=
  ∀ (s : State) (r : Request) (rest : List Request), s.pending = r :: rest →
    r.op.toNat ∉ [0x01, 0x02, 0x10, 0x11, 0x12, 0x13, 0x20, 0x21,
      0x30, 0x31, 0x32, 0x33, 0x34, 0x35, 0x36,
      0x40, 0x41, 0x42, 0x43, 0x44, 0x45, 0x46, 0x47, 0x48, 0x49, 0x4A,
      0x50, 0x51, 0x52, 0x53, 0x54, 0x55, 0x56, 0x57, 0x58, 0x59, 0x5A, 0x5B, 0x5C,
      0x60, 0x61, 0x62, 0x63, 0x64, 0x65] →
    step s = .next { s with pending := rest, answer := some (.error .illegalOp) }

/-- R60, R61, R63: a request decodes to an operation exactly when it is that operation's request, every
operand at every value. -/
def Obligations.DecodeInvertsEncode : Prop :=
  ∀ (r : Request) (i : Instr), decode r = .instr i ↔ r = encode i

/-- R61: a request written out from the table, one for each unit, decodes to its operation. -/
def Obligations.SampleRequestsDecode : Prop :=
  decode ⟨0b00000010#8, [.u16 0xFBBF, .u8 0xA5]⟩ = .instr (.crc16Byte 0xFBBF 0xA5) ∧
  decode ⟨0b00010000#8, [.u8 0x5A]⟩ = .instr (.frmFeed 0x5A) ∧
  decode ⟨0b00100001#8, [.u32 2109, .f32 0xC2040000, .f32 0x42040000, .u8 12]⟩ =
    .instr (.qDecode 2109 0xC2040000 0x42040000 12) ∧
  decode ⟨0b00110101#8, [.u8 0x12, .u16 0xFD00, .u8 0x7F]⟩ = .instr (.idMakeExt 0x12 0xFD00 0x7F) ∧
  decode ⟨0b01000111#8, [.u8 0xFD]⟩ = .instr (.stdSetMasterAddr 0xFD) ∧
  decode ⟨0b01010110#8, [.u8 0xFD, .u8 0x7F, .u16 0x7005, .param (.f32 0x3FC00000)]⟩ =
    .instr (.extParamWrite 0xFD 0x7F 0x7005 (.f32 0x3FC00000)) ∧
  decode ⟨0b01100011#8, [.u32 0x1100FD7F, .bytes [5, 0x70, 0, 0, 0, 0, 0xC0, 0x3F]]⟩ =
    .instr (.extDecParamRead 0x1100FD7F [5, 0x70, 0, 0, 0, 0, 0xC0, 0x3F])

/-- R63, with the model's own fault (notes/assumptions/3.md): the operand types are checked at the
request. The decoder turns a record away exactly when its types are not its table row's; `step` stops
exactly there, and answers a next state everywhere else. -/
def Obligations.OperandTypesAreCheckedAtTheRequest : Prop :=
  (∀ r : Request, decode r = .operandTypes r.op ↔
    ∃ row, opRow r.op = some row ∧ r.operands.map Operand.type ≠ row.operands) ∧
  ∀ s : State,
    (∃ t, step s = .next t ∧ ∀ r rest, s.pending = r :: rest → decode r ≠ .operandTypes r.op) ∨
    ∃ r rest, s.pending = r :: rest ∧ decode r = .operandTypes r.op ∧
      step s = .fault (.operandTypes r.op)

/-- R30, R119, R260: after reset and after `FRM_RESET` the phase is `WAIT_SYNC1` and the count 0;
`FRM_RESET` has no result and no error. -/
def Obligations.ResetAndFrmResetGiveTheInitialState : Prop :=
  (State.reset.fs.phase = .waitSync1 ∧ State.reset.fs.count = 0) ∧
  ∀ s : State, ∃ fs draws,
    exec .frmReset s = .next ({ s with fs := fs, draws := draws }.answering .empty) ∧
      fs.phase = .waitSync1 ∧ fs.count = 0

/-- R28: the state after reset is one of the table's combinations. That no result port is driven there is the
model's choice (notes/assumptions/6.md). -/
def Obligations.ResetSatisfiesTheInvariant : Prop :=
  State.reset.Inv ∧ State.reset.answer = none

/-- R28: every step from a state of R28's table, with result ports of their sizes, gives such a state. -/
def Obligations.StepKeepsTheInvariant : Prop :=
  ∀ s t : State, s.Inv → step s = .next t → t.Inv

/-- R27, R30: no operation reads `FS.buf` at or above `FS.count`, or `FS.len` outside `READ_PAYLOAD`. Two
states that differ only there answer every operation alike, and go on differing only there. -/
def Obligations.UndefinedBytesAreNeverRead : Prop :=
  ∀ (i : Instr) (s₁ s₂ : State), s₁.fs.Inv → s₁.fs.Agree s₂.fs →
    ∃ t₁ t₂ a, exec i s₁ = .next t₁ ∧ exec i s₂ = .next t₂ ∧
      t₁.answer = some a ∧ t₂.answer = some a ∧ t₁.fs.Agree t₂.fs

/-! Errors. -/

/-- R31, R240: every operation ends with one status, `OK` or an error, and leaves the host's requests. -/
def Obligations.EveryOperationEndsWithAStatus : Prop :=
  ∀ (i : Instr) (s : State), ∃ t a, exec i s = .next t ∧ t.answer = some a ∧ t.pending = s.pending ∧
    a.status ≠ .errIllegalOp

/-- R241: an operation that ends with an error changes nothing but the answer. -/
def Obligations.ErrorsWriteNoState : Prop :=
  ∀ (i : Instr) (s t : State) (e : Error), exec i s = .next t → t.answer = some (.error e) →
    t = s.failing e

/-- R243: `ERR_LENGTH` is raised exactly where a rule names a length the operand does not have, and
`ERR_RANGE` exactly where the lengths are right and an integer is outside a range a rule names (R246). -/
def Obligations.LengthAndRangeErrorsAreExactlyTheLimits : Prop :=
  ∀ (i : Instr) (s : State),
    ((∃ n, exec i s = .next (s.failing (.length n))) ↔ i.lengthsOk = false) ∧
    ((∃ v, exec i s = .next (s.failing (.range v))) ↔ i.lengthsOk = true ∧ i.rangesOk = false)

/-- R145, R246 and the first lines of the pseudocode of R143 and R144: the quantizer's errors with their info
values, in their order: the width, the code, the bounds, the NaN input. -/
def Obligations.QuantizerErrorsNameTheirOperands : Prop :=
  ∀ (s : State) (x min max : F32) (u : U32) (bits : Byte),
    let good := ∃ lo hi, value32 min = some lo ∧ value32 max = some hi ∧ lo < hi
    (bits.toNat < 1 ∨ 16 < bits.toNat →
      exec (.qEncode x min max bits) s = .next (s.failing (.range bits.toNat)) ∧
      exec (.qDecode u min max bits) s = .next (s.failing (.range bits.toNat))) ∧
    (1 ≤ bits.toNat → bits.toNat ≤ 16 →
      (2 ^ bits.toNat - 1 < u.toNat →
        exec (.qDecode u min max bits) s = .next (s.failing (.range u.toNat))) ∧
      (u.toNat ≤ 2 ^ bits.toNat - 1 → ¬good →
        exec (.qDecode u min max bits) s = .next (s.failing (.domain [min, max]))) ∧
      (¬good → exec (.qEncode x min max bits) s = .next (s.failing (.domain [min, max]))) ∧
      (good → x.extractLsb' 23 8 = 0xFF#8 → x.extractLsb' 0 23 ≠ 0#23 →
        exec (.qEncode x min max bits) s = .next (s.failing (.domain [x]))))

/-- R244, R145: `ERR_DOMAIN` is raised only by the quantizer, and exactly for a non-finite bound or an empty
or inverted range, with both bounds as its info value, or for a NaN input, with that input as its info
value, once the integer operands are in range. -/
def Obligations.DomainErrorsAreExactlyTheQuantizers : Prop :=
  ∀ (i : Instr) (s : State) (e : Error),
    (exec i s = .next (s.failing e) ∧ e.status = .errDomain) ↔
      (∃ x min max bits, i = .qEncode x min max bits ∧ i.wellFormed = true ∧
        ((e = .domain [min, max] ∧ ¬∃ lo hi, value32 min = some lo ∧ value32 max = some hi ∧ lo < hi) ∨
          (e = .domain [x] ∧ (∃ lo hi, value32 min = some lo ∧ value32 max = some hi ∧ lo < hi) ∧
            x.extractLsb' 23 8 = 0xFF#8 ∧ x.extractLsb' 0 23 ≠ 0#23))) ∨
      (∃ u min max bits, i = .qDecode u min max bits ∧ i.wellFormed = true ∧
        e = .domain [min, max] ∧ ¬∃ lo hi, value32 min = some lo ∧ value32 max = some hi ∧ lo < hi)

/-- R245: `ERR_TYPE` is raised only by `EXT_PARAM_WRITE`, for a `String`. -/
def Obligations.TypeErrorsAreExactlyStringWrites : Prop :=
  ∀ (i : Instr) (s : State),
    (∃ e, exec i s = .next (s.failing e) ∧ e.status = .errType) ↔
      ∃ requester target index str, i = .extParamWrite requester target index (.string str)

/-- R49, R268: a pure operation's answer depends on its operands alone, and it writes nothing else; no
operation at all reads the last answer. -/
def Obligations.PureOperationsDependOnTheirOperandsAlone : Prop :=
  (∀ i : Instr, i.usesFs = false → ∃ a, ∀ s : State, exec i s = .next { s with answer := some a }) ∧
  ∀ (i : Instr) (s : State) (x : Option Answer), exec i { s with answer := x } = exec i s

/-! The CRC unit. -/

/-- R100: XOR the byte into the high byte, then eight times shift, XORing with the polynomial whenever the
top bit was set before the shift. -/
def Obligations.CrcByteShiftsEightTimes : Prop :=
  ∀ (s : State) (crc : U16) (b : Byte), ∃ c : Nat → U16,
    c 0 = crc ^^^ BitVec.ofNat 16 (b.toNat * 256) ∧
    (∀ k, k < 8 → c (k + 1) =
      if 0x8000 ≤ (c k).toNat then BitVec.ofNat 16 ((c k).toNat * 2) ^^^ 0x1021
      else BitVec.ofNat 16 ((c k).toNat * 2)) ∧
    exec (.crc16Byte crc b) s = .next (s.answering (.crc (c 8)))

/-- R101: `CRC16` is the fold of `CRC16_BYTE` over the bytes in order, from the seed. -/
def Obligations.CrcFoldsTheBytes : Prop :=
  ∀ (s : State) (seed : U16) (bytes : List Byte), ∃ c : Nat → U16,
    c 0 = seed ∧
    (∀ k (h : k < bytes.length),
      exec (.crc16Byte (c k) bytes[k]) s = .next (s.answering (.crc (c (k + 1))))) ∧
    exec (.crc16 seed bytes) s = .next (s.answering (.crc (c bytes.length)))

/-- R104: splitting a byte sequence does not change its CRC. -/
def Obligations.CrcOfASplitSequence : Prop :=
  ∀ (s : State) (seed : U16) (a b : List Byte), ∃ mid crc,
    exec (.crc16 seed a) s = .next (s.answering (.crc mid)) ∧
    exec (.crc16 mid b) s = .next (s.answering (.crc crc)) ∧
    exec (.crc16 seed (a ++ b)) s = .next (s.answering (.crc crc))

/-- From R100 and R101 (R115's corner case): changing one byte always changes the CRC. -/
def Obligations.CrcDetectsAChangedByte : Prop :=
  ∀ (s : State) (seed : U16) (before after : List Byte) (b b' : Byte), b ≠ b' → ∃ crc crc',
    exec (.crc16 seed (before ++ b :: after)) s = .next (s.answering (.crc crc)) ∧
    exec (.crc16 seed (before ++ b' :: after)) s = .next (s.answering (.crc crc')) ∧ crc ≠ crc'

/-! The frame synchronizer. -/

/-- R112: in `WAIT_SYNC1` a `0x5A` is stored and moves on; any other byte changes nothing. -/
def Obligations.FeedInWaitSync1 : Prop :=
  ∀ (s : State) (b : Byte), s.fs.phase = .waitSync1 →
    (b = 0x5A →
      exec (.frmFeed b) s = .next
        ({ s with fs := { s.fs with phase := .waitSync2, count := 1, buf := s.fs.buf.set 0 b } }.answering
          (.event .none))) ∧
    (b ≠ 0x5A → exec (.frmFeed b) s = .next (s.answering (.event .none)))

/-- R113: in `WAIT_SYNC2` a `0xA5` is stored and moves on; any other byte, a `0x5A` too, resets. -/
def Obligations.FeedInWaitSync2 : Prop :=
  ∀ (s : State) (b : Byte), s.fs.phase = .waitSync2 →
    (b = 0xA5 →
      exec (.frmFeed b) s = .next
        ({ s with fs := { s.fs with phase := .readHeader, count := 2, buf := s.fs.buf.set 1 b } }.answering
          (.event .none))) ∧
    (b ≠ 0xA5 → ∃ fs draws,
      exec (.frmFeed b) s = .next ({ s with fs := fs, draws := draws }.answering (.event .none)) ∧
        fs.phase = .waitSync1 ∧ fs.count = 0)

/-- R114: in `READ_HEADER` the byte is stored and counted; at the sixth byte the length decides, 1 to 506
accepted, 0 and 507 or more rejected. -/
def Obligations.FeedInReadHeader : Prop :=
  ∀ (s : State) (b : Byte), s.fs.Inv → s.fs.phase = .readHeader →
    let buf := s.fs.buf.setIfInBounds s.fs.count.toNat b
    let len : U16 := s.fs.buf[3] ++ s.fs.buf[2]
    (s.fs.count.toNat < 5 →
      exec (.frmFeed b) s = .next
        ({ s with fs := { s.fs with count := s.fs.count + 1, buf := buf } }.answering (.event .none))) ∧
    (s.fs.count.toNat = 5 → 1 ≤ len.toNat → len.toNat ≤ 506 →
      exec (.frmFeed b) s = .next
        ({ s with fs := { phase := .readPayload, count := 6, len := len, buf := buf } }.answering
          (.event .none))) ∧
    (s.fs.count.toNat = 5 → len.toNat = 0 ∨ 507 ≤ len.toNat → ∃ fs draws,
      exec (.frmFeed b) s = .next ({ s with fs := fs, draws := draws }.answering (.event .none)) ∧
        fs.phase = .waitSync1 ∧ fs.count = 0)

/-- R115: in `READ_PAYLOAD` the byte is stored and counted; at the frame's last byte the CRC of R103 is
compared with the received one, the event is `EV_FRAME` or `EV_CRC_ERROR`, and the synchronizer resets. -/
def Obligations.FeedInReadPayload : Prop :=
  ∀ (s : State) (b : Byte), s.fs.Inv → s.fs.phase = .readPayload →
    let held := s.fs.buf.toList.take s.fs.count.toNat ++ [b]
    let payload := held.drop 6
    let received : U16 := s.fs.buf[5] ++ s.fs.buf[4]
    (s.fs.count.toNat + 1 < 6 + s.fs.len.toNat →
      exec (.frmFeed b) s = .next
        ({ s with fs := { s.fs with
            count := s.fs.count + 1, buf := s.fs.buf.setIfInBounds s.fs.count.toNat b } }.answering
          (.event .none))) ∧
    (s.fs.count.toNat + 1 = 6 + s.fs.len.toNat → ∃ fs draws computed,
      exec (.crc16 0 (held.take 4 ++ payload)) s = .next (s.answering (.crc computed)) ∧
      exec (.frmFeed b) s = .next ({ s with fs := fs, draws := draws }.answering
        (.event (if computed = received
          then .frame payload (decide (payload[0]? = some 0x91 ∧ 76 ≤ payload.length))
          else .crcError computed received))) ∧
      fs.phase = .waitSync1 ∧ fs.count = 0)

/-- R121, R247: `FRM_FEED` ends with `OK` for every byte in every state; an event other than `EV_NONE`
arises only in `READ_PAYLOAD` and leaves the synchronizer in its initial phase. -/
def Obligations.FeedAlwaysEndsWithOk : Prop :=
  ∀ (s : State) (b : Byte), ∃ fs draws e,
    exec (.frmFeed b) s = .next ({ s with fs := fs, draws := draws }.answering (.event e)) ∧
      (e ≠ .none → s.fs.phase = .readPayload ∧ fs.phase = .waitSync1 ∧ fs.count = 0)

/-- R116: the gate is true exactly for a first byte `0x91` and 76 bytes or more, and the record is then
the first 76 bytes. -/
def Obligations.RecordGateAndRecord : Prop :=
  ∀ payload : List Byte,
    (recordGate payload = true ↔ payload[0]? = some 0x91 ∧ 76 ≤ payload.length) ∧
    (Event.frame payload (recordGate payload)).record =
      if payload[0]? = some 0x91 ∧ 76 ≤ payload.length then some (payload.take 76) else none

/-- R117: a batch is the feeds of its bytes in order, and its events are theirs less every `EV_NONE`. -/
def Obligations.BatchIsTheFeedsInOrder : Prop :=
  (∀ s : State, exec (.frmFeedBatch []) s = .next (s.answering (.events []))) ∧
  ∀ (s : State) (bytes : List Byte) (b : Byte), ∃ t es u e,
    exec (.frmFeedBatch bytes) s = .next t ∧ t.answer = some (.ok (.events es)) ∧
    exec (.frmFeed b) t = .next u ∧ u.answer = some (.ok (.event e)) ∧
    exec (.frmFeedBatch (bytes ++ [b])) s =
      .next (u.answering (.events (if e = .none then es else es ++ [e])))

/-- R118: the frame of a payload of 1 to 506 bytes; any other length is `ERR_LENGTH`. -/
def Obligations.EncodeBuildsTheFrame : Prop :=
  ∀ (s : State) (payload : List Byte),
    let h : List Byte :=
      [0x5A, 0xA5, BitVec.ofNat 8 payload.length, BitVec.ofNat 8 (payload.length / 256)]
    (1 ≤ payload.length → payload.length ≤ 506 → ∃ crc : U16,
      exec (.crc16 0 (h ++ payload)) s = .next (s.answering (.crc crc)) ∧
      exec (.frmEncode payload) s = .next (s.answering (.frame
        (h ++ [BitVec.ofNat 8 crc.toNat, BitVec.ofNat 8 (crc.toNat / 256)] ++ payload)))) ∧
    (payload.length = 0 ∨ 507 ≤ payload.length →
      exec (.frmEncode payload) s = .next (s.failing (.length payload.length)))

/-- R120: an encoded frame whose first byte arrives in `WAIT_SYNC1` produces exactly one `EV_FRAME`, on its
last byte, and leaves the synchronizer in `WAIT_SYNC1`. -/
def Obligations.EncodedFrameIsDelivered : Prop :=
  ∀ (s : State) (payload : List Byte), s.fs.phase = .waitSync1 →
    1 ≤ payload.length → payload.length ≤ 506 →
    ∃ frame fs draws t,
      exec (.frmEncode payload) s = .next (s.answering (.frame frame)) ∧
      exec (.frmFeedBatch frame.dropLast) s = .next t ∧ t.answer = some (.ok (.events [])) ∧
      exec (.frmFeedBatch frame) s = .next ({ s with fs := fs, draws := draws }.answering
        (.events [.frame payload (decide (payload[0]? = some 0x91 ∧ 76 ≤ payload.length))])) ∧
      fs.phase = .waitSync1 ∧ fs.count = 0

/-- From R115 and R101 (the source's property S-8): a valid frame with one payload byte changed produces
one `EV_CRC_ERROR` and no frame. -/
def Obligations.CorruptedPayloadByteIsRejected : Prop :=
  ∀ (s : State) (payload : List Byte) (k : Nat) (b : Byte), s.fs.phase = .waitSync1 →
    1 ≤ payload.length → payload.length ≤ 506 → k < payload.length → payload[k]? ≠ some b →
    ∃ frame fs draws computed received,
      exec (.frmEncode payload) s = .next (s.answering (.frame frame)) ∧
      exec (.frmFeedBatch (frame.set (6 + k) b)) s =
        .next ({ s with fs := fs, draws := draws }.answering (.events [.crcError computed received])) ∧
      fs.phase = .waitSync1 ∧ fs.count = 0

/-! The quantizer. Its statements are about the default `QUANT_ARITH = BINARY32` (decision D9). -/

/-- R140: a finite sum, difference, product or quotient of binary32 values is the exact result rounded to
nearest, ties to even; and it is finite exactly when the exact result is below `2^128 - 2^103` in size, the
least that rounds to an infinity. -/
def Obligations.ArithmeticIsCorrectlyRounded : Prop :=
  ∀ (x y : Fp) (a b : ℚ), x.value binary32 = some a → y.value binary32 = some b →
    (∀ r, (binary32.add x y).value binary32 = some r → binary32.Nearest (a + b) r) ∧
    (∀ r, (binary32.sub x y).value binary32 = some r → binary32.Nearest (a - b) r) ∧
    (∀ r, (binary32.mul x y).value binary32 = some r → binary32.Nearest (a * b) r) ∧
    (b ≠ 0 → ∀ r, (binary32.div x y).value binary32 = some r → binary32.Nearest (a / b) r) ∧
    (|a + b| < 2 ^ 128 - 2 ^ 103 ↔ ∃ r, (binary32.add x y).value binary32 = some r) ∧
    (|a - b| < 2 ^ 128 - 2 ^ 103 ↔ ∃ r, (binary32.sub x y).value binary32 = some r) ∧
    (|a * b| < 2 ^ 128 - 2 ^ 103 ↔ ∃ r, (binary32.mul x y).value binary32 = some r) ∧
    (b ≠ 0 → (|a / b| < 2 ^ 128 - 2 ^ 103 ↔ ∃ r, (binary32.div x y).value binary32 = some r))

/-- R143, R149: for every operand the rule admits, overflowing ones too, `Q_ENCODE` answers a code between 0
and `2^bits - 1`; and, with 1 bit over a span that overflows, 0 for every `x < max`. Where an overflow leaves
no stated code, that the free value keeps these limits is the model's choice (notes/assumptions/8.md). -/
def Obligations.QEncodeCodeIsInRange : Prop :=
  ∀ (s : State) (x min max : F32) (bits : Byte) (lo hi : ℚ), 1 ≤ bits.toNat → bits.toNat ≤ 16 →
    value32 min = some lo → value32 max = some hi → lo < hi → (unpack32 x).isNan = false →
    ∃ u : U32, exec (.qEncode x min max bits) s = .next (s.answering (.code u)) ∧
      u.toNat ≤ 2 ^ bits.toNat - 1 ∧
      (bits.toNat = 1 → 2 ^ 128 - 2 ^ 103 ≤ hi - lo → (unpack32 x).lt (unpack32 max) = true → u = 0)

/-- R142, R143: where nothing overflows, the code is the formula's, each operation rounded to nearest, ties
to even, of the clamped operand; and where `max -f min` alone overflows, the quotient by the infinity and
with it the code is 0. An operation overflows exactly when its exact result is `2^128 - 2^103` or more. At
`bits = 1` the formula stands over the rule's corner-case sentence (notes/assumptions/12.md). -/
def Obligations.QEncodeFollowsTheFormula : Prop :=
  ∀ (s : State) (x min max : F32) (bits : Byte) (lo hi xc : ℚ), 1 ≤ bits.toNat → bits.toNat ≤ 16 →
    value32 min = some lo → value32 max = some hi → lo < hi →
    ((∃ v, value32 x = some v ∧ xc = if v < lo then lo else if hi < v then hi else v) ∨
      (x = 0x7F800000 ∧ xc = hi) ∨ (x = 0xFF800000 ∧ xc = lo)) →
    xc - lo < 2 ^ 128 - 2 ^ 103 →
    ∃ d : ℚ, binary32.Nearest (xc - lo) d ∧ (d * (2 ^ bits.toNat - 1) < 2 ^ 128 - 2 ^ 103 →
      (hi - lo < 2 ^ 128 - 2 ^ 103 → ∃ p span q : ℚ,
        binary32.Nearest (d * (2 ^ bits.toNat - 1)) p ∧ binary32.Nearest (hi - lo) span ∧
        binary32.Nearest (p / span) q ∧ 0 ≤ q ∧
        exec (.qEncode x min max bits) s = .next (s.answering (.code (BitVec.ofNat 32 ⌊q⌋₊)))) ∧
      (2 ^ 128 - 2 ^ 103 ≤ hi - lo →
        exec (.qEncode x min max bits) s = .next (s.answering (.code 0))))

/-- R149: `Q_ENCODE` is non-decreasing in `x`, infinities and overflowing spans included, and the two zeros
get one code. Where an overflow leaves no stated code, that the free value keeps the rule's order is the
model's choice (notes/assumptions/8.md). -/
def Obligations.QEncodeIsMonotone : Prop :=
  ∀ (s : State) (x y min max : F32) (bits : Byte) (lo hi : ℚ), 1 ≤ bits.toNat → bits.toNat ≤ 16 →
    value32 min = some lo → value32 max = some hi → lo < hi →
    (unpack32 x).isNan = false → (unpack32 y).isNan = false → (unpack32 y).lt (unpack32 x) = false →
    ∃ u v : U32, exec (.qEncode x min max bits) s = .next (s.answering (.code u)) ∧
      exec (.qEncode y min max bits) s = .next (s.answering (.code v)) ∧ u.toNat ≤ v.toNat

/-- R142: an input below `min` is encoded as `min`, one above `max` as `max`, infinities included. -/
def Obligations.QEncodeClampsItsInput : Prop :=
  ∀ (s : State) (x min max : F32) (bits : Byte) (lo hi : ℚ),
    value32 min = some lo → value32 max = some hi → lo < hi →
    ((∃ v, value32 x = some v ∧ v < lo) ∨ x = 0xFF800000 →
      exec (.qEncode x min max bits) s = exec (.qEncode min min max bits) s) ∧
    ((∃ v, value32 x = some v ∧ hi < v) ∨ x = 0x7F800000 →
      exec (.qEncode x min max bits) s = exec (.qEncode max min max bits) s)

/-- R144: for every operand the rule admits `Q_DECODE` answers a value. Where nothing overflows it is the
formula's, each operation rounded to nearest, ties to even, and never -0.0; where an operation overflows,
which is exactly when its exact result is `2^128 - 2^103` or more, a code above 0 gives the formula's +inf
(notes/assumptions/9.md, and for the NaN of code 0 QDecodeOfZeroIsMin). -/
def Obligations.QDecodeFollowsTheFormula : Prop :=
  ∀ (s : State) (u : U32) (min max : F32) (bits : Byte) (lo hi : ℚ), 1 ≤ bits.toNat → bits.toNat ≤ 16 →
    u.toNat ≤ 2 ^ bits.toNat - 1 → value32 min = some lo → value32 max = some hi → lo < hi →
    ∃ y : F32, exec (.qDecode u min max bits) s = .next (s.answering (.value y)) ∧
      (2 ^ 128 - 2 ^ 103 ≤ hi - lo → u ≠ 0 → y = 0x7F800000) ∧
      (hi - lo < 2 ^ 128 - 2 ^ 103 → ∃ span : ℚ, binary32.Nearest (hi - lo) span ∧
        (2 ^ 128 - 2 ^ 103 ≤ u.toNat * span → y = 0x7F800000) ∧
        (u.toNat * span < 2 ^ 128 - 2 ^ 103 → ∃ p q : ℚ, binary32.Nearest (u.toNat * span) p ∧
          binary32.Nearest (p / (2 ^ bits.toNat - 1)) q ∧
          (2 ^ 128 - 2 ^ 103 ≤ q + lo → y = 0x7F800000) ∧
          (q + lo < 2 ^ 128 - 2 ^ 103 → ∃ r : ℚ, binary32.Nearest (q + lo) r ∧
            value32 y = some r ∧ y ≠ 0x80000000)))

/-- R144's corner case: where the span does not overflow, code 0 gives the pattern of `min` exactly, and `+0.0`
when `min` is `-0.0`; where it does, the formula `0 *f inf` gives a NaN (notes/assumptions/9.md). -/
def Obligations.QDecodeOfZeroIsMin : Prop :=
  ∀ (s : State) (min max : F32) (bits : Byte) (lo hi : ℚ), 1 ≤ bits.toNat → bits.toNat ≤ 16 →
    value32 min = some lo → value32 max = some hi → lo < hi →
    (hi - lo < 2 ^ 128 - 2 ^ 103 → exec (.qDecode 0 min max bits) s =
      .next (s.answering (.value (if min = 0x80000000 then 0x00000000 else min)))) ∧
    (2 ^ 128 - 2 ^ 103 ≤ hi - lo → ∃ y : F32,
      exec (.qDecode 0 min max bits) s = .next (s.answering (.value y)) ∧
        y.extractLsb' 23 8 = 0xFF#8 ∧ y.extractLsb' 0 23 ≠ 0#23)

/-- R146: in each documented domain the endpoints map to each other exactly, and `0.3` in `[0, 0.3]` at 12
bits does not. -/
def Obligations.DomainEndpointsAreExact : Prop :=
  (∀ (s : State) (d : Config.Domain), d ∈ domains →
    exec (.qEncode d.min d.min d.max d.bits) s = .next (s.answering (.code 0)) ∧
    exec (.qEncode d.max d.min d.max d.bits) s =
      .next (s.answering (.code (BitVec.ofNat 32 (2 ^ d.bits.toNat - 1)))) ∧
    exec (.qDecode 0 d.min d.max d.bits) s = .next (s.answering (.value d.min)) ∧
    exec (.qDecode (BitVec.ofNat 32 (2 ^ d.bits.toNat - 1)) d.min d.max d.bits) s =
      .next (s.answering (.value d.max))) ∧
  ∀ s : State, exec (.qEncode 0x3E99999A 0 0x3E99999A 12) s = .next (s.answering (.code 4094))

/-- R148: in each documented domain, decoding a code and encoding the value gives the code or the one
below; decoding is non-decreasing and stays within the bounds. The rule's example is the second clause. -/
def Obligations.DecodedCodesEncodeBack : Prop :=
  (∀ (s : State) (d : Config.Domain), d ∈ domains →
    ∃ (lo hi : ℚ) (y : Nat → F32) (v : Nat → ℚ), value32 d.min = some lo ∧ value32 d.max = some hi ∧
      (∀ u, u < 2 ^ d.bits.toNat →
        exec (.qDecode (BitVec.ofNat 32 u) d.min d.max d.bits) s = .next (s.answering (.value (y u))) ∧
        value32 (y u) = some (v u) ∧ lo ≤ v u ∧ v u ≤ hi ∧
        ∃ w : U32, exec (.qEncode (y u) d.min d.max d.bits) s = .next (s.answering (.code w)) ∧
          (w.toNat = u ∨ w.toNat + 1 = u)) ∧
      ∀ u, u + 1 < 2 ^ d.bits.toNat → v u ≤ v (u + 1)) ∧
  ∀ s : State,
    exec (.qDecode 1 0xC2040000 0x42040000 12) s = .next (s.answering (.value 0xC203EF7F)) ∧
    exec (.qEncode 0xC203EF7F 0xC2040000 0x42040000 12) s = .next (s.answering (.code 0))

/-- From R143 and R144 (R147's sharper bound is from a sample, and the formulas break it:
notes/assumptions/11.md): in each documented domain, encoding a value
and decoding the code gives it back to within 1.02 quantization steps. -/
def Obligations.QuantizedValueIsNear : Prop :=
  ∀ (s : State) (d : Config.Domain) (x : F32) (lo hi a : ℚ), d ∈ domains →
    value32 d.min = some lo → value32 d.max = some hi → value32 x = some a → lo ≤ a → a ≤ hi →
    ∃ (u : U32) (y : F32) (b : ℚ), exec (.qEncode x d.min d.max d.bits) s = .next (s.answering (.code u)) ∧
      exec (.qDecode u d.min d.max d.bits) s = .next (s.answering (.value y)) ∧
      value32 y = some b ∧ |b - a| ≤ 51 / 50 * ((hi - lo) / (2 ^ d.bits.toNat - 1))

/-- R147's worked example, and a value whose error is above R147's sampled bound of 1.002 steps: the bound
is not one of the formulas (notes/assumptions/11.md). -/
def Obligations.RoundTripExceedsTheSampledBound : Prop :=
  (∀ s : State,
    exec (.qEncode 0x408AFA5A 0xC1491EB8 0x41491EB8 16) s = .next (s.answering (.code 44088)) ∧
    exec (.qDecode 44088 0xC1491EB8 0x41491EB8 16) s = .next (s.answering (.value 0x408AF734))) ∧
  ∃ (x y : F32) (u : U32) (a b : ℚ), value32 x = some a ∧ value32 y = some b ∧ -14 ≤ a ∧ a ≤ 14 ∧
    (∀ s : State, exec (.qEncode x 0xC1600000 0x41600000 16) s = .next (s.answering (.code u)) ∧
      exec (.qDecode u 0xC1600000 0x41600000 16) s = .next (s.answering (.value y))) ∧
    1002 / 1000 * (28 / 65535) < |b - a|

/-! The CAN frame codec. -/

/-- R161, R162, R246: the frames built, and the errors, the length before the range. -/
def Obligations.CanBuildersBuildTheFrame : Prop :=
  ∀ (s : State) (id : U32) (data : List Byte),
    let idBytes : List Byte := [BitVec.ofNat 8 (id.toNat / 2 ^ 24), BitVec.ofNat 8 (id.toNat / 2 ^ 16),
      BitVec.ofNat 8 (id.toNat / 2 ^ 8), BitVec.ofNat 8 id.toNat]
    (data.length = 8 → id.toNat ≤ 0x7FF →
      exec (.canBuildStd id data) s = .next (s.answering (.frame ([0x08] ++ idBytes ++ data)))) ∧
    (data.length = 8 → id.toNat ≤ 0x1FFFFFFF →
      exec (.canBuildExt id data) s = .next (s.answering (.frame ([0x88] ++ idBytes ++ data)))) ∧
    (data.length ≠ 8 →
      exec (.canBuildStd id data) s = .next (s.failing (.length data.length)) ∧
      exec (.canBuildExt id data) s = .next (s.failing (.length data.length))) ∧
    (data.length = 8 → 0x7FF < id.toNat →
      exec (.canBuildStd id data) s = .next (s.failing (.range id.toNat))) ∧
    (data.length = 8 → 0x1FFFFFFF < id.toNat →
      exec (.canBuildExt id data) s = .next (s.failing (.range id.toNat)))

/-- R160: every frame built has 13 bytes, `DLC = 8`, `RTR = 0`, and zero unused identifier bits. -/
def Obligations.BuiltFramesAreThirteenBytes : Prop :=
  ∀ (s : State) (id : U32) (data f : List Byte),
    (exec (.canBuildStd id data) s = .next (s.answering (.frame f)) →
      f.length = 13 ∧ infoDlc (byteAt f 0) = 8 ∧ infoRtrFlag (byteAt f 0) = false ∧
        infoExtFlag (byteAt f 0) = false ∧ (be32 f 1).toNat < 2 ^ 11) ∧
    (exec (.canBuildExt id data) s = .next (s.answering (.frame f)) →
      f.length = 13 ∧ infoDlc (byteAt f 0) = 8 ∧ infoRtrFlag (byteAt f 0) = false ∧
        infoExtFlag (byteAt f 0) = true ∧ (be32 f 1).toNat < 2 ^ 29)

/-- R163, R164: the parser's fields and the classification by the top two bits. -/
def Obligations.CanParseAndClassify : Prop :=
  (∀ (s : State) (info b1 b2 b3 b4 : Byte) (data : List Byte), data.length = 8 →
    exec (.canParse (info :: b1 :: b2 :: b3 :: b4 :: data)) s = .next (s.answering (.canFrame info
      (BitVec.ofNat 32 (b1.toNat * 2 ^ 24 + b2.toNat * 2 ^ 16 + b3.toNat * 2 ^ 8 + b4.toNat)) data))) ∧
  (∀ (s : State) (frame : List Byte), frame.length ≠ 13 →
    exec (.canParse frame) s = .next (s.failing (.length frame.length))) ∧
  ∀ (s : State) (info : Byte),
    (info.toNat / 64 = 0 → exec (.canClassify info) s = .next (s.answering (.kind .stdData))) ∧
    (info.toNat / 64 = 2 → exec (.canClassify info) s = .next (s.answering (.kind .extData))) ∧
    (info.toNat / 64 = 1 ∨ info.toNat / 64 = 3 →
      exec (.canClassify info) s = .next (s.answering (.kind .ignore)))

/-- R165, R166, R167: the identifiers and their fields. -/
def Obligations.IdentifierFields : Prop :=
  (∀ (s : State) (mode address : Byte),
    (mode.toNat < 8 → exec (.idMakeStd mode address) s =
      .next (s.answering (.id (BitVec.ofNat 32 (mode.toNat * 256 + address.toNat))))) ∧
    (8 ≤ mode.toNat → exec (.idMakeStd mode address) s = .next (s.failing (.range mode.toNat)))) ∧
  (∀ (s : State) (commandType : Byte) (aux16 : U16) (target : Byte),
    exec (.idMakeExt commandType aux16 target) s = .next (s.answering (.id (BitVec.ofNat 32
      (commandType.toNat % 32 * 2 ^ 24 + aux16.toNat * 2 ^ 8 + target.toNat))))) ∧
  ∀ (s : State) (id : U32),
    exec (.idParseExt id) s = .next (s.answering (.idFields (BitVec.ofNat 8 (id.toNat / 2 ^ 24 % 32))
      (BitVec.ofNat 16 (id.toNat / 2 ^ 8)) (BitVec.ofNat 8 id.toNat)))

/-- R168: parsing inverts both builders, and `ID_PARSE_EXT` inverts `ID_MAKE_EXT`. -/
def Obligations.ParsingInvertsBuilding : Prop :=
  (∀ (s : State) (id : U32) (data : List Byte), id.toNat ≤ 0x7FF → data.length = 8 → ∃ f,
    exec (.canBuildStd id data) s = .next (s.answering (.frame f)) ∧
    exec (.canParse f) s = .next (s.answering (.canFrame 0x08 id data))) ∧
  (∀ (s : State) (id : U32) (data : List Byte), id.toNat ≤ 0x1FFFFFFF → data.length = 8 → ∃ f,
    exec (.canBuildExt id data) s = .next (s.answering (.frame f)) ∧
    exec (.canParse f) s = .next (s.answering (.canFrame 0x88 id data))) ∧
  ∀ (s : State) (t : Byte) (a : U16) (g : Byte), t.toNat < 32 → ∃ id,
    exec (.idMakeExt t a g) s = .next (s.answering (.id id)) ∧
    exec (.idParseExt id) s = .next (s.answering (.idFields t a g))

/-! The standard dialect. -/

/-- R181 to R188: the payloads of rule R180's table. -/
def Obligations.StandardPayloads : Prop :=
  ∀ (s : State) (b : Byte),
    exec .stdEnable s = .next (s.answering (.data [0xFF, 0xFF, 0xFF, 0xFF, 0xFF, 0xFF, 0xFF, 0xFC])) ∧
    exec .stdStop s = .next (s.answering (.data [0xFF, 0xFF, 0xFF, 0xFF, 0xFF, 0xFF, 0xFF, 0xFD])) ∧
    exec .stdSetZero s = .next (s.answering (.data [0xFF, 0xFF, 0xFF, 0xFF, 0xFF, 0xFF, 0xFF, 0xFE])) ∧
    exec (.stdFault b) s = .next (s.answering (.data [0xFF, 0xFF, 0xFF, 0xFF, 0xFF, 0xFF, b, 0xFB])) ∧
    exec (.stdSetMode b) s = .next (s.answering (.data [0xFF, 0xFF, 0xFF, 0xFF, 0xFF, 0xFF, b, 0xFC])) ∧
    exec (.stdSetMotorAddr b) s =
      .next (s.answering (.data [0xFF, 0xFF, 0xFF, 0xFF, 0xFF, 0xFF, b, 0xFA])) ∧
    exec (.stdSetProtocol b) s =
      .next (s.answering (.data [0xFF, 0xFF, 0xFF, 0xFF, 0xFF, 0xFF, b, 0xFD])) ∧
    exec (.stdSetMasterAddr b) s =
      .next (s.answering (.data [0xFF, 0xFF, 0xFF, 0xFF, 0xFF, 0xFF, 0xFD, b]))

/-- R189, R190: two little-endian binary32 patterns, passed through unchanged. -/
def Obligations.RawFloatPayloads : Prop :=
  ∀ (s : State) (x y : F32),
    let le : F32 → List Byte := fun w => [BitVec.ofNat 8 w.toNat, BitVec.ofNat 8 (w.toNat / 2 ^ 8),
      BitVec.ofNat 8 (w.toNat / 2 ^ 16), BitVec.ofNat 8 (w.toNat / 2 ^ 24)]
    exec (.stdPosition x y) s = .next (s.answering (.data (le x ++ le y))) ∧
    exec (.stdSpeed x y) s = .next (s.answering (.data (le x ++ le y)))

/-- R192: the sentinel overlap: byte 7 is shared, byte 6 differs, and nothing else does. -/
def Obligations.SentinelOverlap : Prop :=
  ∀ (s : State) (p : Byte), p ≠ 0xFF → ∃ enable setMode0 stop setProtocol : List Byte,
    exec .stdEnable s = .next (s.answering (.data enable)) ∧
    exec (.stdSetMode 0) s = .next (s.answering (.data setMode0)) ∧
    exec .stdStop s = .next (s.answering (.data stop)) ∧
    exec (.stdSetProtocol p) s = .next (s.answering (.data setProtocol)) ∧
    enable[7]? = setMode0[7]? ∧ enable[6]? ≠ setMode0[6]? ∧ enable.take 6 = setMode0.take 6 ∧
    stop[7]? = setProtocol[7]? ∧ stop[6]? ≠ setProtocol[6]? ∧ stop.take 6 = setProtocol.take 6

/-- R191: the feedback fields are what `Q_DECODE` answers for the packed codes; the temperature is the
signed tenths divided by ten, rounded to binary32. -/
def Obligations.StandardFeedbackDecode : Prop :=
  (∀ (s : State) (b0 b1 b2 b3 b4 b5 b6 b7 : Byte), ∃ (angle velocity torque temperature : F32) (t : ℚ),
    exec (.qDecode (BitVec.ofNat 32 (b1.toNat * 256 + b2.toNat)) 0xC1491EB8 0x41491EB8 16) s =
      .next (s.answering (.value angle)) ∧
    exec (.qDecode (BitVec.ofNat 32 (b3.toNat * 16 + b4.toNat / 16)) 0xC2040000 0x42040000 12) s =
      .next (s.answering (.value velocity)) ∧
    exec (.qDecode (BitVec.ofNat 32 (b4.toNat % 16 * 256 + b5.toNat)) 0xC1600000 0x41600000 12) s =
      .next (s.answering (.value torque)) ∧
    value32 temperature = some t ∧
    binary32.Nearest (((BitVec.ofNat 16 (b6.toNat * 256 + b7.toNat)).toInt : ℚ) / 10) t ∧
    (b6 = 0 ∧ b7 = 0 → temperature = 0) ∧
    exec (.stdFbDecode [b0, b1, b2, b3, b4, b5, b6, b7]) s =
      .next (s.answering (.stdFeedback b0 angle velocity torque temperature))) ∧
  ∀ (s : State) (data : List Byte), data.length ≠ 8 →
    exec (.stdFbDecode data) s = .next (s.failing (.length data.length))

/-! The extended dialect. -/

/-- R202 to R207 and R209 to R214: the identifiers and payloads of the extended builders. -/
def Obligations.ExtendedBuilders : Prop :=
  ∀ (s : State) (r g c : Byte) (index : U16) (clear : Bool),
    let id : Nat → U32 := fun t => BitVec.ofNat 32 (t * 2 ^ 24 + r.toNat * 2 ^ 16 + g.toNat)
    let zero : List Byte := [0, 0, 0, 0, 0, 0, 0, 0]
    exec (.extGetDeviceId r g) s = .next (s.answering (.idData (id 0x00) zero)) ∧
    exec (.extEnable r g) s = .next (s.answering (.idData (id 0x03) zero)) ∧
    exec (.extStop r g clear) s = .next (s.answering (.idData (id 0x04)
      [if clear then 1 else 0, 0, 0, 0, 0, 0, 0, 0])) ∧
    exec (.extSetZero r g) s = .next (s.answering (.idData (id 0x06) [1, 0, 0, 0, 0, 0, 0, 0])) ∧
    exec (.extSetAddr r g c) s = .next (s.answering (.idData
      (BitVec.ofNat 32 (0x07 * 2 ^ 24 + c.toNat * 2 ^ 16 + r.toNat * 2 ^ 8 + g.toNat)) zero)) ∧
    exec (.extParamRead r g index) s = .next (s.answering (.idData (id 0x11)
      [BitVec.ofNat 8 index.toNat, BitVec.ofNat 8 (index.toNat / 256), 0, 0, 0, 0, 0, 0])) ∧
    exec (.extFaultReq r g) s = .next (s.answering (.idData (id 0x15) zero)) ∧
    exec (.extSaveParams r g) s = .next (s.answering (.idData (id 0x16) [1, 2, 3, 4, 5, 6, 7, 8])) ∧
    exec (.extSetBaud r g c) s = .next (s.answering (.idData (id 0x17) [1, 2, 3, 4, 5, 6, c, 0])) ∧
    exec (.extSetActiveReport r g c) s =
      .next (s.answering (.idData (id 0x18) [1, 2, 3, 4, 5, 6, c, 0])) ∧
    exec (.extSetProtocol r g c) s = .next (s.answering (.idData (id 0x19) [1, 2, 3, 4, 5, 6, c, 0])) ∧
    exec (.extReadVersion r g) s = .next (s.answering (.idData (id 0x04) [0, 0xC4, 0, 0, 0, 0, 0, 0]))

/-- R208: the parameter write for each value type, and its errors. -/
def Obligations.ParameterWrite : Prop :=
  ∀ (s : State) (r g : Byte) (index : U16),
    let sent : List Byte → State := fun v =>
      s.answering (.idData (BitVec.ofNat 32 (0x12 * 2 ^ 24 + r.toNat * 2 ^ 16 + g.toNat))
        ([BitVec.ofNat 8 index.toNat, BitVec.ofNat 8 (index.toNat / 256), 0, 0] ++ v))
    (∀ n : Int, 0 ≤ n → n ≤ 0xFF →
      exec (.extParamWrite r g index (.u8 n)) s = .next (sent [BitVec.ofInt 8 n, 0, 0, 0])) ∧
    (∀ n : Int, 0 ≤ n → n ≤ 0xFFFF → exec (.extParamWrite r g index (.u16 n)) s =
      .next (sent [BitVec.ofInt 8 n, BitVec.ofInt 8 (n / 256), 0, 0])) ∧
    (∀ n : Int, -32768 ≤ n → n ≤ 32767 → exec (.extParamWrite r g index (.i16 n)) s =
      .next (sent [BitVec.ofInt 8 n, BitVec.ofInt 8 (n / 256), 0, 0])) ∧
    (∀ n : Int, 0 ≤ n → n ≤ 0xFFFFFFFF → exec (.extParamWrite r g index (.u32 n)) s =
      .next (sent [BitVec.ofInt 8 n, BitVec.ofInt 8 (n / 2 ^ 8), BitVec.ofInt 8 (n / 2 ^ 16),
        BitVec.ofInt 8 (n / 2 ^ 24)])) ∧
    (∀ x : F32, exec (.extParamWrite r g index (.f32 x)) s =
      .next (sent [BitVec.ofNat 8 x.toNat, BitVec.ofNat 8 (x.toNat / 2 ^ 8),
        BitVec.ofNat 8 (x.toNat / 2 ^ 16), BitVec.ofNat 8 (x.toNat / 2 ^ 24)])) ∧
    (∀ n : Int, (n < 0 ∨ 0xFF < n →
        exec (.extParamWrite r g index (.u8 n)) s = .next (s.failing (.range n))) ∧
      (n < 0 ∨ 0xFFFF < n →
        exec (.extParamWrite r g index (.u16 n)) s = .next (s.failing (.range n))) ∧
      (n < -32768 ∨ 32767 < n →
        exec (.extParamWrite r g index (.i16 n)) s = .next (s.failing (.range n))) ∧
      (n < 0 ∨ 0xFFFFFFFF < n →
        exec (.extParamWrite r g index (.u32 n)) s = .next (s.failing (.range n)))) ∧
    ∀ str : List Byte,
      exec (.extParamWrite r g index (.string str)) s = .next (s.failing (.type 5))

/-- R224: a float written is read back bit for bit, with its index. -/
def Obligations.ParameterWriteReadsBack : Prop :=
  ∀ (s : State) (r g : Byte) (a : U16) (x : F32) (id : U32), id.toNat / 2 ^ 16 % 256 = 0 →
    ∃ (sentId : U32) (data raw : List Byte),
      exec (.extParamWrite r g a (.f32 x)) s = .next (s.answering (.idData sentId data)) ∧
      exec (.extDecParamRead id data) s = .next (s.answering (.paramRead a true raw x x)) ∧
      data.take 2 = [BitVec.ofNat 8 a.toNat, BitVec.ofNat 8 (a.toNat / 256)]

/-- R216: the decoder an inbound identifier's command type names. -/
def Obligations.ExtendedClassification : Prop :=
  ∀ (s : State) (id : U32),
    exec (.extClassify id) s = .next (s.answering (.decoder
      (match id.toNat / 2 ^ 24 % 32 with
        | 0x00 => .deviceId
        | 0x02 => .feedback
        | 0x11 => .paramRead
        | 0x15 => .fault
        | 0x18 => .feedback
        | _ => .raw)))

/-- R217, R221, R222: the device-id, parameter-read and fault replies, and their length errors. -/
def Obligations.ExtendedReplies : Prop :=
  (∀ (s : State) (id : U32) (b0 b1 b2 b3 b4 b5 b6 b7 : Byte),
    let data := [b0, b1, b2, b3, b4, b5, b6, b7]
    let word : Byte → Byte → Byte → Byte → Nat := fun p q u v =>
      p.toNat * 2 ^ 24 + q.toNat * 2 ^ 16 + u.toNat * 2 ^ 8 + v.toNat
    exec (.extDecDeviceId id data) s = .next (s.answering (.deviceId (BitVec.ofNat 8 (id.toNat / 2 ^ 8))
      (BitVec.ofNat 64 (word b0 b1 b2 b3 * 2 ^ 32 + word b4 b5 b6 b7)))) ∧
    exec (.extDecParamRead id data) s = .next (s.answering (.paramRead
      (BitVec.ofNat 16 (b1.toNat * 256 + b0.toNat)) (decide (id.toNat / 2 ^ 16 % 256 = 0))
      [b4, b5, b6, b7] (BitVec.ofNat 32 (word b7 b6 b5 b4)) (BitVec.ofNat 32 (word b7 b6 b5 b4)))) ∧
    exec (.extDecFault data) s =
      .next (s.answering (.faultWord (BitVec.ofNat 32 (word b3 b2 b1 b0))))) ∧
  ∀ (s : State) (id : U32) (data : List Byte), data.length ≠ 8 →
    exec (.extDecDeviceId id data) s = .next (s.failing (.length data.length)) ∧
    exec (.extDecParamRead id data) s = .next (s.failing (.length data.length)) ∧
    exec (.extDecFault data) s = .next (s.failing (.length data.length))

/-- R218, R219, R220: the version reply and the 16-bit feedback, in the default of the parameter
`EXT_FB_LAYOUT` (decision D16; the model is at that default by choice, notes/assumptions/13.md). -/
def Obligations.ExtendedFeedbackDecode : Prop :=
  (∀ (s : State) (id : U32) (b0 b1 b2 b3 b4 b5 b6 b7 : Byte),
    let data := [b0, b1, b2, b3, b4, b5, b6, b7]
    let address : Byte := BitVec.ofNat 8 (id.toNat / 2 ^ 8)
    let faultBits : BitVec 6 := BitVec.ofNat 6 (id.toNat / 2 ^ 16)
    let modeStatus : BitVec 2 := BitVec.ofNat 2 (id.toNat / 2 ^ 22)
    (b0 = 0x00 ∧ b1 = 0xC4 ∧ b2 = 0x56 →
      exec (.extDecFeedback id data) s =
        .next (s.answering (.extVersion address faultBits modeStatus b3 b4 b5 b6))) ∧
    (¬(b0 = 0x00 ∧ b1 = 0xC4 ∧ b2 = 0x56) →
      ∃ (angle velocity torque temperature : F32) (t : ℚ),
        exec (.qDecode (BitVec.ofNat 32 (b0.toNat * 256 + b1.toNat)) 0xC1491EB8 0x41491EB8 16) s =
          .next (s.answering (.value angle)) ∧
        exec (.qDecode (BitVec.ofNat 32 (b2.toNat * 256 + b3.toNat)) 0xC2040000 0x42040000 16) s =
          .next (s.answering (.value velocity)) ∧
        exec (.qDecode (BitVec.ofNat 32 (b4.toNat * 256 + b5.toNat)) 0xC1600000 0x41600000 16) s =
          .next (s.answering (.value torque)) ∧
        value32 temperature = some t ∧
        binary32.Nearest (((BitVec.ofNat 16 (b6.toNat * 256 + b7.toNat)).toInt : ℚ) / 10) t ∧
        (b6 = 0 ∧ b7 = 0 → temperature = 0) ∧
        exec (.extDecFeedback id data) s = .next (s.answering
          (.extFeedback address faultBits modeStatus angle velocity torque temperature)))) ∧
  (∀ (s : State) (id : U32) (data : List Byte), data.length ≠ 8 →
    exec (.extDecFeedback id data) s = .next (s.failing (.length data.length))) ∧
  modeStatusName 0 = .reset ∧ modeStatusName 1 = .calibrating ∧ modeStatusName 2 = .running ∧
  modeStatusName 3 = .unknown

/-- R223: `matched` holds the word's bits at the eleven positions and no other, and `count` is how many
are set. -/
def Obligations.FaultMatchKeepsTheNamedBits : Prop :=
  ∀ (s : State) (word : U32), ∃ (matched : U32) (count : Byte),
    exec (.faultMatch word) s = .next (s.answering (.faultMatch word matched count)) ∧
    (∀ k, k < 32 → matched.getLsbD k =
      (word.getLsbD k && decide (k ∈ [0, 1, 2, 3, 4, 5, 7, 8, 9, 14, 16]))) ∧
    count.toNat = ((List.range 32).filter fun k => matched.getLsbD k).length ∧ count.toNat ≤ 11

/-! The pseudo-operations of R71. -/

/-- R71: `SEND_STD` and `SEND_EXT` of a builder give the 13-byte frame whose parse gives the identifier and
the payload back. A chain ends at the first operation that ends with an error (notes/assumptions/19.md). -/
def Obligations.SendChainsBuildTheFrame : Prop :=
  (∀ (s : State) (mode address : Byte) (cmd : Instr) (d : List Byte), mode.toNat < 8 →
    exec cmd s = .next (s.answering (.data d)) → ∃ f,
      sendStd mode address cmd s = .next (s.answering (.frame f)) ∧
      exec (.canParse f) s = .next (s.answering
        (.canFrame 0x08 (BitVec.ofNat 32 (mode.toNat * 256 + address.toNat)) d))) ∧
  (∀ (s : State) (cmd : Instr) (id : U32) (d : List Byte),
    exec cmd s = .next (s.answering (.idData id d)) → ∃ f,
      sendExt cmd s = .next (s.answering (.frame f)) ∧
      exec (.canParse f) s = .next (s.answering (.canFrame 0x88 id d))) ∧
  (∀ (s : State) (mode address : Byte) (cmd : Instr), 8 ≤ mode.toNat →
    sendStd mode address cmd s = .next (s.failing (.range mode.toNat))) ∧
  ∀ (s : State) (cmd : Instr) (e : Error), exec cmd s = .next (s.failing e) →
    sendExt cmd s = .next (s.failing e)

/-- R71, R169, R216: `RECV` is the decoder that the info byte and the command type name, applied to the
parsed fields. -/
def Obligations.RecvChoosesTheDecoder : Prop :=
  ∀ (s : State) (info b1 b2 b3 b4 : Byte) (data : List Byte), data.length = 8 →
    let frame := info :: b1 :: b2 :: b3 :: b4 :: data
    let id : U32 :=
      BitVec.ofNat 32 (b1.toNat * 2 ^ 24 + b2.toNat * 2 ^ 16 + b3.toNat * 2 ^ 8 + b4.toNat)
    recv frame s =
      match info.toNat / 64 with
      | 0 => exec (.stdFbDecode data) s
      | 2 =>
        match b1.toNat % 32 with
        | 0x00 => exec (.extDecDeviceId id data) s
        | 0x02 => exec (.extDecFeedback id data) s
        | 0x11 => exec (.extDecParamRead id data) s
        | 0x15 => exec (.extDecFault data) s
        | 0x18 => exec (.extDecFeedback id data) s
        | _ => exec (.extClassify id) s
      | _ => exec (.canClassify info) s
end

