-- ==== Sys2Proof/Laws/Bytes.lean ====
section
/-! SUPPORT. The lengths and contents of the byte-order helpers. -/

namespace Sys2Proof.Machine

@[simp] theorem bytesLe_length {w : Nat} (v : BitVec w) (n : Nat) : (bytesLe v n).length = n := by
  simp [bytesLe]

@[simp] theorem bytesBe_length {w : Nat} (v : BitVec w) (n : Nat) : (bytesBe v n).length = n := by
  simp [bytesBe]

@[simp] theorem zeros_length (n : Nat) : (zeros n).length = n := by
  simp [zeros]

/-- A CAN payload has `CAN_DLC` bytes. -/
theorem canPayload_length {named : List Byte} (h : named.length ≤ constants.canDlc) :
    (canPayload named).length = constants.canDlc := by
  simp [canPayload]
  omega

@[simp] theorem canFrameOf_length (info : Byte) (id : U32) (data : List Byte) :
    (canFrameOf info id data).length = 5 + data.length := by
  simp [canFrameOf]
  omega

theorem bytesLe_two {w : Nat} (v : BitVec w) : bytesLe v 2 = [v.extractLsb' 0 8, v.extractLsb' 8 8] := rfl

theorem bytesLe_four {w : Nat} (v : BitVec w) :
    bytesLe v 4 =
      [v.extractLsb' 0 8, v.extractLsb' 8 8, v.extractLsb' 16 8, v.extractLsb' 24 8] := rfl

theorem bytesBe_four {w : Nat} (v : BitVec w) :
    bytesBe v 4 =
      [v.extractLsb' 24 8, v.extractLsb' 16 8, v.extractLsb' 8 8, v.extractLsb' 0 8] := rfl

@[simp] theorem byteAt_cons_zero (b : Byte) (bs : List Byte) : byteAt (b :: bs) 0 = b := rfl

@[simp] theorem byteAt_cons_succ (b : Byte) (bs : List Byte) (i : Nat) :
    byteAt (b :: bs) (i + 1) = byteAt bs i := rfl

end Sys2Proof.Machine
end

