-- ==== Sys2Proof/Laws/Float.lean ====
section
/-! SUPPORT. Small facts of the floating-point arithmetic. -/

namespace Sys2Proof.Machine

@[simp] theorem binary32_frac : binary32.frac = 23 := rfl
@[simp] theorem binary32_unit : binary32.unit = 149 := rfl
@[simp] theorem binary32_infCode : binary32.infCode = 255 * 2 ^ 23 := rfl

@[simp] theorem signed_false (m : Nat) : signed false m = m := rfl
@[simp] theorem signed_true (m : Nat) : signed true m = -(m : Int) := rfl

/-- An exact quotient is not rounded. -/
theorem roundHalfEven_mul (q d : Nat) (h : 0 < d) : roundHalfEven (q * d) d = q := by
  simp [roundHalfEven, h]

/-- The rounded natural is one of the two beside the quotient. -/
theorem roundHalfEven_cases (n d : Nat) :
    roundHalfEven n d = n / d ∨ roundHalfEven n d = n / d + 1 := by
  unfold roundHalfEven
  simp only
  split
  · exact .inl rfl
  · split
    · exact .inr rfl
    · have : n / d % 2 = 0 ∨ n / d % 2 = 1 := by omega
      rcases this with h | h <;> simp [h]

/-- Zero rounds to zero of the sign given. -/
theorem round_zero (neg : Bool) (d : Nat) : binary32.round neg 0 d = .fin neg 0 := by
  by_cases h : d = 0 <;> simp [Format.round, Format.excess, roundHalfEven, h]

@[simp] theorem value_fin (f : Format) (neg : Bool) (m : Nat) :
    (Fp.fin neg m).value f = some ((signed neg m : ℚ) / 2 ^ f.unit) := rfl

/-- A number of the format is its own rounding. -/
theorem nearest_self {f : Format} {v : ℚ} (h : f.IsFloat v) : f.Nearest v v := by
  refine ⟨h, fun y _ => by simp, fun y _ hne heq => ?_⟩
  simp only [sub_self, abs_zero] at heq
  exact absurd (sub_eq_zero.mp (abs_eq_zero.mp heq.symm)) hne

end Sys2Proof.Machine
end

