-- ==== Sys2Proof/Laws/State.lean ====
section
/-! SUPPORT. One lemma per field and update of the state, so that no proof unfolds a record update. -/

namespace Sys2Proof.Machine

@[simp] theorem answering_fs (s : State) (r : Result) : (s.answering r).fs = s.fs := rfl
@[simp] theorem answering_draws (s : State) (r : Result) : (s.answering r).draws = s.draws := rfl
@[simp] theorem answering_pending (s : State) (r : Result) : (s.answering r).pending = s.pending := rfl
@[simp] theorem answering_answer (s : State) (r : Result) : (s.answering r).answer = some (.ok r) := rfl

@[simp] theorem failing_fs (s : State) (e : Error) : (s.failing e).fs = s.fs := rfl
@[simp] theorem failing_draws (s : State) (e : Error) : (s.failing e).draws = s.draws := rfl
@[simp] theorem failing_pending (s : State) (e : Error) : (s.failing e).pending = s.pending := rfl
@[simp] theorem failing_answer (s : State) (e : Error) : (s.failing e).answer = some (.error e) := rfl

@[simp] theorem store_phase (fs : Fs) (i : Nat) (b : Byte) : (fs.store i b).phase = fs.phase := rfl
@[simp] theorem store_count (fs : Fs) (i : Nat) (b : Byte) : (fs.store i b).count = fs.count := rfl
@[simp] theorem store_len (fs : Fs) (i : Nat) (b : Byte) : (fs.store i b).len = fs.len := rfl
@[simp] theorem store_buf (fs : Fs) (i : Nat) (b : Byte) :
    (fs.store i b).buf = fs.buf.setIfInBounds i b := rfl

@[simp] theorem push_phase (fs : Fs) (b : Byte) : (fs.push b).phase = fs.phase := rfl
@[simp] theorem push_count (fs : Fs) (b : Byte) : (fs.push b).count = fs.count + 1 := rfl
@[simp] theorem push_len (fs : Fs) (b : Byte) : (fs.push b).len = fs.len := rfl
@[simp] theorem push_buf (fs : Fs) (b : Byte) :
    (fs.push b).buf = fs.buf.setIfInBounds fs.count.toNat b := rfl

@[simp] theorem resetFs_phase (s : State) : (resetFs s).fs.phase = .waitSync1 := rfl
@[simp] theorem resetFs_count (s : State) : (resetFs s).fs.count = 0 := rfl
@[simp] theorem resetFs_draws (s : State) : (resetFs s).draws = s.draws + 1 := rfl
@[simp] theorem resetFs_pending (s : State) : (resetFs s).pending = s.pending := rfl
@[simp] theorem resetFs_answer (s : State) : (resetFs s).answer = s.answer := rfl

@[simp] theorem reset_phase : State.reset.fs.phase = .waitSync1 := rfl
@[simp] theorem reset_count : State.reset.fs.count = 0 := rfl
@[simp] theorem reset_pending : State.reset.pending = [] := rfl
@[simp] theorem reset_answer : State.reset.answer = none := rfl

end Sys2Proof.Machine
end

