-- ==== Sys2Proof/Laws/Ops.lean ====
section
/-! SUPPORT. What each shared operation can do, said once. -/

namespace Sys2Proof.Machine

/-- `succeed` answers one next state. -/
theorem succeed_eq_next {r : Result} {s t : State} : succeed r s = .next t ↔ t = s.answering r := by
  simp [succeed, eq_comm]

/-- `raise` answers one next state. -/
theorem raise_eq_next {e : Error} {s t : State} : raise e s = .next t ↔ t = s.failing e := by
  simp [raise, eq_comm]

@[simp] theorem finish_ok (r : Result) (s : State) : finish (.ok r) s = .next (s.answering r) := rfl

@[simp] theorem finish_error (e : Error) (s : State) : finish (.error e) s = .next (s.failing e) := rfl

/-- `finish` answers with the results, or with the error and nothing else. -/
theorem finish_eq_next {x : Except Error Result} {s t : State} :
    finish x s = .next t ↔
      (∃ r, x = .ok r ∧ t = s.answering r) ∨ (∃ e, x = .error e ∧ t = s.failing e) := by
  cases x <;> simp [eq_comm]

theorem maxFrame_eq : constants.maxFrame = 512 := rfl

@[simp] theorem bytes_length (fs : Fs) : fs.bytes.length = constants.maxFrame := by
  simp [Fs.bytes]

/-- A stored byte is read back. -/
theorem store_get_same (fs : Fs) {i : Nat} (b : Byte) (h : i < constants.maxFrame) : (fs.store i b).buf[i]? = some b := by
  simp [h]

/-- A store leaves every other byte alone. -/
theorem store_get_other (fs : Fs) {i j : Nat} (b : Byte) (h : i ≠ j) :
    (fs.store i b).buf[j]? = fs.buf[j]? := by
  simp [h]

/-- A pushed byte in the buffer's sequence. -/
theorem push_bytes (fs : Fs) (b : Byte) : (fs.push b).bytes = fs.bytes.set fs.count.toNat b := by
  simp only [Fs.bytes, push_buf]
  apply List.ext_getElem?
  intro k
  simp only [Vector.getElem?_toList, Vector.getElem?_setIfInBounds, List.getElem?_set,
    Vector.length_toList]

/-- After a push within the buffer, the defined bytes are the old ones and the new one. -/
theorem push_take (fs : Fs) (b : Byte) (h : fs.count.toNat < constants.maxFrame) :
    (fs.push b).bytes.take (fs.count.toNat + 1) = fs.bytes.take fs.count.toNat ++ [b] := by
  rw [push_bytes]
  have hl : fs.count.toNat < fs.bytes.length := by simpa using h
  rw [List.take_add_one, List.take_set_of_le (Nat.le_refl _)]
  simp [h]

/-- A push within the buffer counts one byte more. -/
theorem push_count_toNat (fs : Fs) (b : Byte) (h : fs.count.toNat < constants.maxFrame) :
    (fs.push b).count.toNat = fs.count.toNat + 1 := by
  simp [BitVec.toNat_add]
  rw [maxFrame_eq] at h
  omega

end Sys2Proof.Machine
end

