-- ==== Sys2Proof/Laws/Framer.lean ====
section
/-! SUPPORT. What one byte does to the synchronizer, phase by phase. -/

namespace Sys2Proof.Machine

theorem feedByte_waitSync1 {s : State} (b : Byte) (h : s.fs.phase = .waitSync1) :
    feedByte b s = feedWaitSync1 b s := by
  simp [feedByte, h]

theorem feedByte_waitSync2 {s : State} (b : Byte) (h : s.fs.phase = .waitSync2) :
    feedByte b s = feedWaitSync2 b s := by
  simp [feedByte, h]

theorem feedByte_readHeader {s : State} (b : Byte) (h : s.fs.phase = .readHeader) :
    feedByte b s = feedReadHeader b s := by
  simp [feedByte, h]

theorem feedByte_readPayload {s : State} (b : Byte) (h : s.fs.phase = .readPayload) :
    feedByte b s = feedReadPayload b s := by
  simp [feedByte, h]

/-- Everything one byte can do to the state: nothing, a reset, or a change of `FS` alone. -/
theorem feedByte_cases (b : Byte) (s : State) :
    (feedByte b s).1 = s ∨ (feedByte b s).1 = resetFs s ∨ ∃ fs, (feedByte b s).1 = { s with fs := fs } := by
  unfold feedByte feedWaitSync1 feedWaitSync2 feedReadHeader feedReadPayload
  split
  · split
    · exact .inr (.inr ⟨_, rfl⟩)
    · exact .inl rfl
  · split
    · exact .inr (.inr ⟨_, rfl⟩)
    · exact .inr (.inl rfl)
  · simp only
    split
    · split
      · exact .inr (.inl rfl)
      · exact .inr (.inr ⟨_, rfl⟩)
    · exact .inr (.inr ⟨_, rfl⟩)
  · simp only
    split
    · exact .inr (.inl rfl)
    · exact .inr (.inr ⟨_, rfl⟩)

/-- A byte touches neither the host's requests nor the last answer. -/
@[simp] theorem feedByte_pending (b : Byte) (s : State) : (feedByte b s).1.pending = s.pending := by
  rcases feedByte_cases b s with h | h | ⟨fs, h⟩ <;> simp [h]

@[simp] theorem feedByte_answer (b : Byte) (s : State) : (feedByte b s).1.answer = s.answer := by
  rcases feedByte_cases b s with h | h | ⟨fs, h⟩ <;> simp [h]

@[simp] theorem feedBytes_nil (s : State) : feedBytes [] s = (s, []) := rfl

@[simp] theorem feedBytes_cons_state (b : Byte) (bs : List Byte) (s : State) :
    (feedBytes (b :: bs) s).1 = (feedBytes bs (feedByte b s).1).1 := rfl

theorem feedBytes_cons_events (b : Byte) (bs : List Byte) (s : State) :
    (feedBytes (b :: bs) s).2 =
      if (feedByte b s).2 = .none then (feedBytes bs (feedByte b s).1).2
      else (feedByte b s).2 :: (feedBytes bs (feedByte b s).1).2 := rfl

@[simp] theorem feedBytes_pending (bs : List Byte) (s : State) :
    (feedBytes bs s).1.pending = s.pending := by
  induction bs generalizing s with
  | nil => rfl
  | cons b bs ih => simp [ih]

end Sys2Proof.Machine
end

