-- ==== Sys2Proof/Laws/PerInstr.lean ====
section
/-! SUPPORT. For every operation: its request is written as the opcode table's row for it says. -/

namespace Sys2Proof.Laws

/-- The code of the operation's request is a row of the opcode table, and its operand record has that
row's types in that row's order (rules R60, R61). -/
def EncodedRow.Statement (i : Instr) : Prop :=
  ∃ row, opRow (encode i).op = some row ∧ (encode i).operands.map Operand.type = row.operands

theorem EncodedRow.crc16 (seed : U16) (bytes : List Byte) : EncodedRow.Statement (.crc16 seed bytes) :=
  ⟨_, rfl, rfl⟩

theorem EncodedRow.crc16Byte (crc : U16) (b : Byte) : EncodedRow.Statement (.crc16Byte crc b) :=
  ⟨_, rfl, rfl⟩

theorem EncodedRow.frmFeed (b : Byte) : EncodedRow.Statement (.frmFeed b) :=
  ⟨_, rfl, rfl⟩

theorem EncodedRow.frmFeedBatch (bytes : List Byte) : EncodedRow.Statement (.frmFeedBatch bytes) :=
  ⟨_, rfl, rfl⟩

theorem EncodedRow.frmEncode (payload : List Byte) : EncodedRow.Statement (.frmEncode payload) :=
  ⟨_, rfl, rfl⟩

theorem EncodedRow.frmReset : EncodedRow.Statement (.frmReset) :=
  ⟨_, rfl, rfl⟩

theorem EncodedRow.qEncode (x : F32) (min : F32) (max : F32) (bits : Byte) : EncodedRow.Statement (.qEncode x min max bits) :=
  ⟨_, rfl, rfl⟩

theorem EncodedRow.qDecode (u : U32) (min : F32) (max : F32) (bits : Byte) : EncodedRow.Statement (.qDecode u min max bits) :=
  ⟨_, rfl, rfl⟩

theorem EncodedRow.canBuildStd (id : U32) (data : List Byte) : EncodedRow.Statement (.canBuildStd id data) :=
  ⟨_, rfl, rfl⟩

theorem EncodedRow.canBuildExt (id : U32) (data : List Byte) : EncodedRow.Statement (.canBuildExt id data) :=
  ⟨_, rfl, rfl⟩

theorem EncodedRow.canParse (frame : List Byte) : EncodedRow.Statement (.canParse frame) :=
  ⟨_, rfl, rfl⟩

theorem EncodedRow.canClassify (info : Byte) : EncodedRow.Statement (.canClassify info) :=
  ⟨_, rfl, rfl⟩

theorem EncodedRow.idMakeStd (mode : Byte) (address : Byte) : EncodedRow.Statement (.idMakeStd mode address) :=
  ⟨_, rfl, rfl⟩

theorem EncodedRow.idMakeExt (commandType : Byte) (aux16 : U16) (target : Byte) : EncodedRow.Statement (.idMakeExt commandType aux16 target) :=
  ⟨_, rfl, rfl⟩

theorem EncodedRow.idParseExt (id : U32) : EncodedRow.Statement (.idParseExt id) :=
  ⟨_, rfl, rfl⟩

theorem EncodedRow.stdEnable : EncodedRow.Statement (.stdEnable) :=
  ⟨_, rfl, rfl⟩

theorem EncodedRow.stdStop : EncodedRow.Statement (.stdStop) :=
  ⟨_, rfl, rfl⟩

theorem EncodedRow.stdSetZero : EncodedRow.Statement (.stdSetZero) :=
  ⟨_, rfl, rfl⟩

theorem EncodedRow.stdFault (code : Byte) : EncodedRow.Statement (.stdFault code) :=
  ⟨_, rfl, rfl⟩

theorem EncodedRow.stdSetMode (m : Byte) : EncodedRow.Statement (.stdSetMode m) :=
  ⟨_, rfl, rfl⟩

theorem EncodedRow.stdSetMotorAddr (id : Byte) : EncodedRow.Statement (.stdSetMotorAddr id) :=
  ⟨_, rfl, rfl⟩

theorem EncodedRow.stdSetProtocol (p : Byte) : EncodedRow.Statement (.stdSetProtocol p) :=
  ⟨_, rfl, rfl⟩

theorem EncodedRow.stdSetMasterAddr (id : Byte) : EncodedRow.Statement (.stdSetMasterAddr id) :=
  ⟨_, rfl, rfl⟩

theorem EncodedRow.stdPosition (targetPos : F32) (maxSpeed : F32) : EncodedRow.Statement (.stdPosition targetPos maxSpeed) :=
  ⟨_, rfl, rfl⟩

theorem EncodedRow.stdSpeed (targetSpeed : F32) (currentLimit : F32) : EncodedRow.Statement (.stdSpeed targetSpeed currentLimit) :=
  ⟨_, rfl, rfl⟩

theorem EncodedRow.stdFbDecode (data : List Byte) : EncodedRow.Statement (.stdFbDecode data) :=
  ⟨_, rfl, rfl⟩

theorem EncodedRow.extGetDeviceId (requester : Byte) (target : Byte) : EncodedRow.Statement (.extGetDeviceId requester target) :=
  ⟨_, rfl, rfl⟩

theorem EncodedRow.extEnable (requester : Byte) (target : Byte) : EncodedRow.Statement (.extEnable requester target) :=
  ⟨_, rfl, rfl⟩

theorem EncodedRow.extStop (requester : Byte) (target : Byte) (clearFault : Bool) : EncodedRow.Statement (.extStop requester target clearFault) :=
  ⟨_, rfl, rfl⟩

theorem EncodedRow.extSetZero (requester : Byte) (target : Byte) : EncodedRow.Statement (.extSetZero requester target) :=
  ⟨_, rfl, rfl⟩

theorem EncodedRow.extSetAddr (requester : Byte) (target : Byte) (newId : Byte) : EncodedRow.Statement (.extSetAddr requester target newId) :=
  ⟨_, rfl, rfl⟩

theorem EncodedRow.extParamRead (requester : Byte) (target : Byte) (index : U16) : EncodedRow.Statement (.extParamRead requester target index) :=
  ⟨_, rfl, rfl⟩

theorem EncodedRow.extParamWrite (requester : Byte) (target : Byte) (index : U16) (value : ParamValue) : EncodedRow.Statement (.extParamWrite requester target index value) :=
  ⟨_, rfl, rfl⟩

theorem EncodedRow.extFaultReq (requester : Byte) (target : Byte) : EncodedRow.Statement (.extFaultReq requester target) :=
  ⟨_, rfl, rfl⟩

theorem EncodedRow.extSaveParams (requester : Byte) (target : Byte) : EncodedRow.Statement (.extSaveParams requester target) :=
  ⟨_, rfl, rfl⟩

theorem EncodedRow.extSetBaud (requester : Byte) (target : Byte) (code : Byte) : EncodedRow.Statement (.extSetBaud requester target code) :=
  ⟨_, rfl, rfl⟩

theorem EncodedRow.extSetActiveReport (requester : Byte) (target : Byte) (flag : Byte) : EncodedRow.Statement (.extSetActiveReport requester target flag) :=
  ⟨_, rfl, rfl⟩

theorem EncodedRow.extSetProtocol (requester : Byte) (target : Byte) (code : Byte) : EncodedRow.Statement (.extSetProtocol requester target code) :=
  ⟨_, rfl, rfl⟩

theorem EncodedRow.extReadVersion (requester : Byte) (target : Byte) : EncodedRow.Statement (.extReadVersion requester target) :=
  ⟨_, rfl, rfl⟩

theorem EncodedRow.extClassify (id : U32) : EncodedRow.Statement (.extClassify id) :=
  ⟨_, rfl, rfl⟩

theorem EncodedRow.extDecDeviceId (id : U32) (data : List Byte) : EncodedRow.Statement (.extDecDeviceId id data) :=
  ⟨_, rfl, rfl⟩

theorem EncodedRow.extDecFeedback (id : U32) (data : List Byte) : EncodedRow.Statement (.extDecFeedback id data) :=
  ⟨_, rfl, rfl⟩

theorem EncodedRow.extDecParamRead (id : U32) (data : List Byte) : EncodedRow.Statement (.extDecParamRead id data) :=
  ⟨_, rfl, rfl⟩

theorem EncodedRow.extDecFault (data : List Byte) : EncodedRow.Statement (.extDecFault data) :=
  ⟨_, rfl, rfl⟩

theorem EncodedRow.faultMatch (word : U32) : EncodedRow.Statement (.faultMatch word) :=
  ⟨_, rfl, rfl⟩

end Sys2Proof.Laws
end

