-- ==== Sys2Proof/Laws/Quantizer.lean ====
section
/-! SUPPORT. The search and the free steps behind the codes of overflowing quotients. -/

namespace Sys2Proof.Machine

/-- What the bitwise search finds: a number that satisfies `p`, and no smaller than any other in reach. -/
theorem greatest_spec {p : Nat → Bool} (n acc : Nat) (h : p acc = true)
    (down : ∀ j k, acc ≤ j → j ≤ k → p k = true → p j = true) :
    p (greatest p n acc) = true ∧ acc ≤ greatest p n acc ∧
      ∀ m, m < acc + 2 ^ n → p m = true → m ≤ greatest p n acc := by
  induction n generalizing acc with
  | zero => exact ⟨h, Nat.le_refl _, fun m hm _ => by simp [greatest] at hm ⊢; omega⟩
  | succ n ih =>
    have pos : 0 < 2 ^ n := Nat.two_pow_pos n
    have two : 2 ^ (n + 1) = 2 ^ n + 2 ^ n := by omega
    unfold greatest
    split
    · rename_i hp
      obtain ⟨sat, low, top⟩ := ih (acc + 2 ^ n) hp fun j k hj => down j k (by omega)
      exact ⟨sat, by omega, fun m hm => top m (by omega)⟩
    · rename_i hp
      obtain ⟨sat, low, top⟩ := ih acc h down
      refine ⟨sat, low, fun m _ hpm => ?_⟩
      by_cases hm : m < acc + 2 ^ n
      · exact top m hm hpm
      · exact absurd (down _ m (Nat.le_add_right _ _) (by omega) hpm) hp

theorem orderKey_lt (w : F32) : orderKey w < 2 ^ 32 := by
  have := w.isLt
  unfold orderKey
  split
  · omega
  · rename_i h
    simp [BitVec.msb_eq_decide] at h
    omega

@[simp] theorem ofOrderKey_orderKey (w : F32) : ofOrderKey (orderKey w) = w := by
  have hw := w.isLt
  apply BitVec.eq_of_toNat_eq
  unfold ofOrderKey orderKey
  cases h : w.msb
  · simp
  · simp [BitVec.msb_eq_decide] at h
    rw [if_pos rfl, if_pos (by omega), BitVec.toNat_ofNat]
    omega

/-- The free code is a code. -/
theorem freeCode_le (xc min max : F32) (bits : Byte) : freeCode xc min max bits ≤ topCode bits := by
  simpa [freeCode] using List.countP_le_length (l := List.range (topCode bits))

/-- The free code does not fall as the operand rises. -/
theorem freeCode_mono {x y : F32} (min max : F32) (bits : Byte) (h : units32 x ≤ units32 y) :
    freeCode x min max bits ≤ freeCode y min max bits := by
  apply List.countP_mono_left
  intro k _
  simp only [decide_eq_true_eq]
  exact fun hk => le_trans hk h

end Sys2Proof.Machine
end

