-- ==== Sys2Proof/Tests/Slice0.lean ====
section
/-! SUPPORT. Tests. The expected results of the instruction tests are the vectors of
spec/95_test_vectors.md; the decoded requests are written from spec/opcode_table.json, codes bit by bit. -/

namespace Sys2Proof.Tests

open Sys2Proof Sys2Proof.Machine

set_option maxRecDepth 8000

/-- The answer of an operation issued in a state. -/
def answerIn (s : State) (i : Instr) : Option Answer :=
  match exec i s with
  | .next t => t.answer
  | .fault _ => none
  | .refused _ => none

/-- The answer of an operation issued right after reset. -/
def answerOf (i : Instr) : Option Answer :=
  answerIn State.reset i

/-- The state after reset and a sequence of bytes. -/
def fed (bytes : List Byte) : State :=
  (feedBytes bytes State.reset).1

/-- The state after reset in which the host issues one request. -/
def issuing (r : Request) : State :=
  { State.reset with pending := [r] }

/-! The checks of `Instr.wellFormed`: each refuses an ill-formed term. -/

theorem test_wf_frmEncode_empty : Instr.wellFormed (.frmEncode []) = false := by decide

theorem test_wf_frmEncode_long : Instr.wellFormed (.frmEncode (zeros 507)) = false := by decide

theorem test_wf_qEncode_bits : Instr.wellFormed (.qEncode 0 0 0x3F800000 0) = false ∧
    Instr.wellFormed (.qEncode 0 0 0x3F800000 17) = false := by decide

theorem test_wf_qDecode_code : Instr.wellFormed (.qDecode 4096 0xC2040000 0x42040000 12) = false := by
  decide

theorem test_wf_qDecode_bits : Instr.wellFormed (.qDecode 0 0xC2040000 0x42040000 17) = false := by
  decide

theorem test_wf_canBuildStd : Instr.wellFormed (.canBuildStd 0x800 (zeros 8)) = false ∧
    Instr.wellFormed (.canBuildStd 1 (zeros 7)) = false := by decide

theorem test_wf_canBuildExt : Instr.wellFormed (.canBuildExt 0x20000000 (zeros 8)) = false ∧
    Instr.wellFormed (.canBuildExt 1 (zeros 9)) = false := by decide

theorem test_wf_canParse : Instr.wellFormed (.canParse (zeros 12)) = false := by decide

theorem test_wf_idMakeStd : Instr.wellFormed (.idMakeStd 8 0) = false := by decide

theorem test_wf_payload_lengths : Instr.wellFormed (.stdFbDecode (zeros 7)) = false ∧
    Instr.wellFormed (.extDecDeviceId 0 (zeros 9)) = false ∧
    Instr.wellFormed (.extDecFeedback 0 (zeros 7)) = false ∧
    Instr.wellFormed (.extDecParamRead 0 (zeros 7)) = false ∧
    Instr.wellFormed (.extDecFault (zeros 7)) = false := by decide

theorem test_wf_paramRanges : Instr.wellFormed (.extParamWrite 0 0 0 (.u8 256)) = false ∧
    Instr.wellFormed (.extParamWrite 0 0 0 (.u16 65536)) = false ∧
    Instr.wellFormed (.extParamWrite 0 0 0 (.u32 (-1))) = false ∧
    Instr.wellFormed (.extParamWrite 0 0 0 (.i16 32768)) = false := by decide

/-! Decoding. -/

theorem test_decode_crc16 : decode ⟨0b00000001#8, [.u16 0x7005, .bytes [0x31, 0x32]]⟩ = .instr (.crc16 0x7005 [0x31, 0x32]) := rfl

theorem test_decode_crc16Byte : decode ⟨0b00000010#8, [.u16 0x7005, .u8 0xFD]⟩ = .instr (.crc16Byte 0x7005 0xFD) := rfl

theorem test_decode_frmFeed : decode ⟨0b00010000#8, [.u8 0xFD]⟩ = .instr (.frmFeed 0xFD) := rfl

theorem test_decode_frmFeedBatch : decode ⟨0b00010001#8, [.bytes [0x31, 0x32]]⟩ = .instr (.frmFeedBatch [0x31, 0x32]) := rfl

theorem test_decode_frmEncode : decode ⟨0b00010010#8, [.bytes [0x31, 0x32]]⟩ = .instr (.frmEncode [0x31, 0x32]) := rfl

theorem test_decode_frmReset : decode ⟨0b00010011#8, []⟩ = .instr (.frmReset) := rfl

theorem test_decode_qEncode : decode ⟨0b00100000#8, [.f32 0x3FC00000, .f32 0xC2040000, .f32 0x42040000, .u8 0xFD]⟩ = .instr (.qEncode 0x3FC00000 0xC2040000 0x42040000 0xFD) := rfl

theorem test_decode_qDecode : decode ⟨0b00100001#8, [.u32 0x01234567, .f32 0x3FC00000, .f32 0xC2040000, .u8 0xFD]⟩ = .instr (.qDecode 0x01234567 0x3FC00000 0xC2040000 0xFD) := rfl

theorem test_decode_canBuildStd : decode ⟨0b00110000#8, [.u32 0x01234567, .bytes [0x31, 0x32]]⟩ = .instr (.canBuildStd 0x01234567 [0x31, 0x32]) := rfl

theorem test_decode_canBuildExt : decode ⟨0b00110001#8, [.u32 0x01234567, .bytes [0x31, 0x32]]⟩ = .instr (.canBuildExt 0x01234567 [0x31, 0x32]) := rfl

theorem test_decode_canParse : decode ⟨0b00110010#8, [.bytes [0x31, 0x32]]⟩ = .instr (.canParse [0x31, 0x32]) := rfl

theorem test_decode_canClassify : decode ⟨0b00110011#8, [.u8 0xFD]⟩ = .instr (.canClassify 0xFD) := rfl

theorem test_decode_idMakeStd : decode ⟨0b00110100#8, [.u8 0xFD, .u8 0x7F]⟩ = .instr (.idMakeStd 0xFD 0x7F) := rfl

theorem test_decode_idMakeExt : decode ⟨0b00110101#8, [.u8 0xFD, .u16 0x7005, .u8 0x7F]⟩ = .instr (.idMakeExt 0xFD 0x7005 0x7F) := rfl

theorem test_decode_idParseExt : decode ⟨0b00110110#8, [.u32 0x01234567]⟩ = .instr (.idParseExt 0x01234567) := rfl

theorem test_decode_stdEnable : decode ⟨0b01000000#8, []⟩ = .instr (.stdEnable) := rfl

theorem test_decode_stdStop : decode ⟨0b01000001#8, []⟩ = .instr (.stdStop) := rfl

theorem test_decode_stdSetZero : decode ⟨0b01000010#8, []⟩ = .instr (.stdSetZero) := rfl

theorem test_decode_stdFault : decode ⟨0b01000011#8, [.u8 0xFD]⟩ = .instr (.stdFault 0xFD) := rfl

theorem test_decode_stdSetMode : decode ⟨0b01000100#8, [.u8 0xFD]⟩ = .instr (.stdSetMode 0xFD) := rfl

theorem test_decode_stdSetMotorAddr : decode ⟨0b01000101#8, [.u8 0xFD]⟩ = .instr (.stdSetMotorAddr 0xFD) := rfl

theorem test_decode_stdSetProtocol : decode ⟨0b01000110#8, [.u8 0xFD]⟩ = .instr (.stdSetProtocol 0xFD) := rfl

theorem test_decode_stdSetMasterAddr : decode ⟨0b01000111#8, [.u8 0xFD]⟩ = .instr (.stdSetMasterAddr 0xFD) := rfl

theorem test_decode_stdPosition : decode ⟨0b01001000#8, [.f32 0x3FC00000, .f32 0xC2040000]⟩ = .instr (.stdPosition 0x3FC00000 0xC2040000) := rfl

theorem test_decode_stdSpeed : decode ⟨0b01001001#8, [.f32 0x3FC00000, .f32 0xC2040000]⟩ = .instr (.stdSpeed 0x3FC00000 0xC2040000) := rfl

theorem test_decode_stdFbDecode : decode ⟨0b01001010#8, [.bytes [0x31, 0x32]]⟩ = .instr (.stdFbDecode [0x31, 0x32]) := rfl

theorem test_decode_extGetDeviceId : decode ⟨0b01010000#8, [.u8 0xFD, .u8 0x7F]⟩ = .instr (.extGetDeviceId 0xFD 0x7F) := rfl

theorem test_decode_extEnable : decode ⟨0b01010001#8, [.u8 0xFD, .u8 0x7F]⟩ = .instr (.extEnable 0xFD 0x7F) := rfl

theorem test_decode_extStop : decode ⟨0b01010010#8, [.u8 0xFD, .u8 0x7F, .bool true]⟩ = .instr (.extStop 0xFD 0x7F true) := rfl

theorem test_decode_extSetZero : decode ⟨0b01010011#8, [.u8 0xFD, .u8 0x7F]⟩ = .instr (.extSetZero 0xFD 0x7F) := rfl

theorem test_decode_extSetAddr : decode ⟨0b01010100#8, [.u8 0xFD, .u8 0x7F, .u8 0x10]⟩ = .instr (.extSetAddr 0xFD 0x7F 0x10) := rfl

theorem test_decode_extParamRead : decode ⟨0b01010101#8, [.u8 0xFD, .u8 0x7F, .u16 0x7005]⟩ = .instr (.extParamRead 0xFD 0x7F 0x7005) := rfl

theorem test_decode_extParamWrite : decode ⟨0b01010110#8, [.u8 0xFD, .u8 0x7F, .u16 0x7005, .param (.i16 (-2))]⟩ = .instr (.extParamWrite 0xFD 0x7F 0x7005 (.i16 (-2))) := rfl

theorem test_decode_extFaultReq : decode ⟨0b01010111#8, [.u8 0xFD, .u8 0x7F]⟩ = .instr (.extFaultReq 0xFD 0x7F) := rfl

theorem test_decode_extSaveParams : decode ⟨0b01011000#8, [.u8 0xFD, .u8 0x7F]⟩ = .instr (.extSaveParams 0xFD 0x7F) := rfl

theorem test_decode_extSetBaud : decode ⟨0b01011001#8, [.u8 0xFD, .u8 0x7F, .u8 0x10]⟩ = .instr (.extSetBaud 0xFD 0x7F 0x10) := rfl

theorem test_decode_extSetActiveReport : decode ⟨0b01011010#8, [.u8 0xFD, .u8 0x7F, .u8 0x10]⟩ = .instr (.extSetActiveReport 0xFD 0x7F 0x10) := rfl

theorem test_decode_extSetProtocol : decode ⟨0b01011011#8, [.u8 0xFD, .u8 0x7F, .u8 0x10]⟩ = .instr (.extSetProtocol 0xFD 0x7F 0x10) := rfl

theorem test_decode_extReadVersion : decode ⟨0b01011100#8, [.u8 0xFD, .u8 0x7F]⟩ = .instr (.extReadVersion 0xFD 0x7F) := rfl

theorem test_decode_extClassify : decode ⟨0b01100000#8, [.u32 0x01234567]⟩ = .instr (.extClassify 0x01234567) := rfl

theorem test_decode_extDecDeviceId : decode ⟨0b01100001#8, [.u32 0x01234567, .bytes [0x31, 0x32]]⟩ = .instr (.extDecDeviceId 0x01234567 [0x31, 0x32]) := rfl

theorem test_decode_extDecFeedback : decode ⟨0b01100010#8, [.u32 0x01234567, .bytes [0x31, 0x32]]⟩ = .instr (.extDecFeedback 0x01234567 [0x31, 0x32]) := rfl

theorem test_decode_extDecParamRead : decode ⟨0b01100011#8, [.u32 0x01234567, .bytes [0x31, 0x32]]⟩ = .instr (.extDecParamRead 0x01234567 [0x31, 0x32]) := rfl

theorem test_decode_extDecFault : decode ⟨0b01100100#8, [.bytes [0x31, 0x32]]⟩ = .instr (.extDecFault [0x31, 0x32]) := rfl

theorem test_decode_faultMatch : decode ⟨0b01100101#8, [.u32 0x01234567]⟩ = .instr (.faultMatch 0x01234567) := rfl

theorem test_decode_unassigned : decode ⟨0x14, [.u8 1]⟩ = .unassignedOp 0x14 := rfl

theorem test_decode_operandTypes : decode ⟨0x10, [.u16 1]⟩ = .operandTypes 0x10 := rfl

theorem test_decodeTableWord : decodeTableWord 8 0x35 = some (.idMakeExt 0 0 0) ∧
    decodeTableWord 8 0x66 = none := ⟨rfl, rfl⟩

theorem test_withFetchWord_runs : step (State.reset.withFetchWord 8 0x41) =
    .next (State.reset.answering (.data [0xFF, 0xFF, 0xFF, 0xFF, 0xFF, 0xFF, 0xFF, 0xFD])) := rfl

/-! One operation each (spec/95_test_vectors.md). -/

/-- FR-1, at index 6. -/
theorem test_frmFeed_frame : answerIn (fed [0x5A, 0xA5, 0x01, 0x00, 0xBE, 0x22]) (.frmFeed 0x01) =
    some (.ok (.event (.frame [0x01] false))) := by decide

/-- FR-7, at index 6. -/
theorem test_frmFeed_crcError : answerIn (fed [0x5A, 0xA5, 0x01, 0x00, 0xBE, 0x22]) (.frmFeed 0x00) =
    some (.ok (.event (.crcError 0x329F 0x22BE))) := by decide

/-- After FR-20, `FRM_RESET` gives `FS = (0, 0)`. -/
theorem test_frmReset : answerIn (fed [0x5A, 0xA5]) .frmReset = some (.ok .empty) ∧
    (resetFs (fed [0x5A, 0xA5])).fs.phase = .waitSync1 ∧ (resetFs (fed [0x5A, 0xA5])).fs.count = 0 := by
  decide

/-- FR-13, FR-14, FR-16: the record gate. -/
theorem test_recordGate : recordGate (0x91 :: zeros 75) = true ∧ recordGate (0x91 :: zeros 74) = false ∧
    recordGate (0x92 :: zeros 75) = false := by decide

/-- X-4: an error leaves a frame in progress intact. -/
theorem test_error_keeps_fs : exec (.frmEncode []) (fed [0x5A, 0xA5]) =
    .next ((fed [0x5A, 0xA5]).failing (.length 0)) := rfl

theorem test_crc16_a : answerOf (.crc16 0xFFFF [0x31, 0x32, 0x33, 0x34, 0x35, 0x36, 0x37, 0x38, 0x39]) = some (.ok (.crc 0x29B1)) := by decide

theorem test_crc16_b : answerOf (.crc16 0x1234 []) = some (.ok (.crc 0x1234)) := by decide

theorem test_crc16Byte_a : answerOf (.crc16Byte 0xFBBF 0xA5) = some (.ok (.crc 0x043B)) := by decide

theorem test_crc16Byte_b : answerOf (.crc16Byte 0x8000 0) = some (.ok (.crc 0x9188)) := by decide

theorem test_frmFeedBatch_a : answerOf (.frmFeedBatch [0x5A, 0x00, 0x5A, 0xA5, 0x01, 0x00, 0xBE, 0x22, 0x00, 0x5A, 0xA5, 0x01, 0x00, 0xBE, 0x22, 0x01]) = some (.ok (.events [.crcError 0x329F 0x22BE, .frame [1] false])) := by decide

theorem test_frmFeedBatch_b : answerOf (.frmFeedBatch [0x5A, 0x5A, 0xA5, 0x5A, 0xA5, 0x01, 0x00, 0xBE, 0x22, 0x01]) = some (.ok (.events [.frame [1] false])) := by decide

theorem test_frmEncode_a : answerOf (.frmEncode [0x10, 0x5A, 0xA5, 0x01, 0x00]) = some (.ok (.frame [0x5A, 0xA5, 0x05, 0x00, 0xD8, 0x28, 0x10, 0x5A, 0xA5, 0x01, 0x00])) := by decide

theorem test_frmEncode_b : answerOf (.frmEncode (zeros 507)) = some (.error (.length 507)) := by decide

theorem test_qEncode_a : answerOf (.qEncode 0x3E99999A 0x00000000 0x3E99999A 12) = some (.ok (.code 4094)) := by decide

theorem test_qEncode_b : answerOf (.qEncode 0xFF800000 0xC1600000 0x41600000 16) = some (.ok (.code 0)) := by decide

theorem test_qDecode_a : answerOf (.qDecode 1 0xC2040000 0x42040000 12) = some (.ok (.value 0xC203EF7F)) := by decide

theorem test_qDecode_b : answerOf (.qDecode 5000 0x3F800000 0 12) = some (.error (.range 5000)) := by decide

theorem test_canBuildStd_a : answerOf (.canBuildStd 0x101 [0xFF, 0xFF, 0xFF, 0xFF, 0xFF, 0xFF, 0xFF, 0xFC]) = some (.ok (.frame [0x08, 0x00, 0x00, 0x01, 0x01, 0xFF, 0xFF, 0xFF, 0xFF, 0xFF, 0xFF, 0xFF, 0xFC])) := by decide

theorem test_canBuildStd_b : answerOf (.canBuildStd 0x800 (zeros 9)) = some (.error (.length 9)) := by decide

theorem test_canBuildExt_a : answerOf (.canBuildExt 0x01234567 [0x01, 0x02, 0x03, 0x04, 0x05, 0x06, 0x07, 0x08]) = some (.ok (.frame [0x88, 0x01, 0x23, 0x45, 0x67, 0x01, 0x02, 0x03, 0x04, 0x05, 0x06, 0x07, 0x08])) := by decide

theorem test_canBuildExt_b : answerOf (.canBuildExt 0x20000000 (zeros 8)) = some (.error (.range 0x20000000)) := by decide

theorem test_canParse_a : answerOf (.canParse [0x48, 0xFF, 0xFF, 0xFF, 0xFF, 0x00, 0x00, 0x00, 0x00, 0x00, 0x00, 0x00, 0x00]) = some (.ok (.canFrame 0x48 0xFFFFFFFF (zeros 8))) := by decide

theorem test_canParse_b : answerOf (.canParse (zeros 26)) = some (.error (.length 26)) := by decide

theorem test_canClassify_a : answerOf (.canClassify 0xBF) = some (.ok (.kind .extData)) := by decide

theorem test_canClassify_b : answerOf (.canClassify 0x48) = some (.ok (.kind .ignore)) := by decide

theorem test_idMakeStd_a : answerOf (.idMakeStd 1 127) = some (.ok (.id 0x17f)) := by decide

theorem test_idMakeStd_b : answerOf (.idMakeStd 8 0) = some (.error (.range 8)) := by decide

theorem test_idMakeExt_a : answerOf (.idMakeExt 0x12 0xFD00 0x7F) = some (.ok (.id 0x12FD007F)) := by decide

theorem test_idMakeExt_b : answerOf (.idMakeExt 0x3F 0xFFFF 0xFF) = some (.ok (.id 0x1FFFFFFF)) := by decide

theorem test_idParseExt_a : answerOf (.idParseExt 0xFFFFFFFF) = some (.ok (.idFields 0x1F 0xFFFF 0xFF)) := by decide

theorem test_idParseExt_b : answerOf (.idParseExt 0x02857FFD) = some (.ok (.idFields 2 0x857F 0xFD)) := by decide

theorem test_stdEnable : answerOf (.stdEnable) = some (.ok (.data [0xFF, 0xFF, 0xFF, 0xFF, 0xFF, 0xFF, 0xFF, 0xFC])) := by decide

theorem test_stdStop : answerOf (.stdStop) = some (.ok (.data [0xFF, 0xFF, 0xFF, 0xFF, 0xFF, 0xFF, 0xFF, 0xFD])) := by decide

theorem test_stdSetZero : answerOf (.stdSetZero) = some (.ok (.data [0xFF, 0xFF, 0xFF, 0xFF, 0xFF, 0xFF, 0xFF, 0xFE])) := by decide

theorem test_stdFault : answerOf (.stdFault 0xFF) = some (.ok (.data [0xFF, 0xFF, 0xFF, 0xFF, 0xFF, 0xFF, 0xFF, 0xFB])) := by decide

theorem test_stdSetMode : answerOf (.stdSetMode 0) = some (.ok (.data [0xFF, 0xFF, 0xFF, 0xFF, 0xFF, 0xFF, 0x00, 0xFC])) := by decide

theorem test_stdSetMotorAddr : answerOf (.stdSetMotorAddr 5) = some (.ok (.data [0xFF, 0xFF, 0xFF, 0xFF, 0xFF, 0xFF, 0x05, 0xFA])) := by decide

theorem test_stdSetProtocol : answerOf (.stdSetProtocol 1) = some (.ok (.data [0xFF, 0xFF, 0xFF, 0xFF, 0xFF, 0xFF, 0x01, 0xFD])) := by decide

theorem test_stdSetMasterAddr : answerOf (.stdSetMasterAddr 0) = some (.ok (.data [0xFF, 0xFF, 0xFF, 0xFF, 0xFF, 0xFF, 0xFD, 0x00])) := by decide

theorem test_stdPosition : answerOf (.stdPosition 0x80000000 0x7F800000) = some (.ok (.data [0x00, 0x00, 0x00, 0x80, 0x00, 0x00, 0x80, 0x7F])) := by decide

theorem test_stdSpeed : answerOf (.stdSpeed 0xC0500000 0x40000000) = some (.ok (.data [0x00, 0x00, 0x50, 0xC0, 0x00, 0x00, 0x00, 0x40])) := by decide

theorem test_stdFbDecode_a : answerOf (.stdFbDecode [0x05, 0x12, 0x34, 0x56, 0x78, 0x9A, 0x80, 0x00]) = some (.ok (.stdFeedback 5 0xC12C8495 0xC12B5BB6 0x3F873870 0xC54CCCCD)) := by decide

theorem test_stdFbDecode_b : answerOf (.stdFbDecode (zeros 7)) = some (.error (.length 7)) := by decide

theorem test_extGetDeviceId : answerOf (.extGetDeviceId 0xFD 0x7F) = some (.ok (.idData 0x00FD007F [0x00, 0x00, 0x00, 0x00, 0x00, 0x00, 0x00, 0x00])) := by decide

theorem test_extEnable : answerOf (.extEnable 0xFD 0x7F) = some (.ok (.idData 0x03FD007F [0x00, 0x00, 0x00, 0x00, 0x00, 0x00, 0x00, 0x00])) := by decide

theorem test_extStop : answerOf (.extStop 0xFD 0x7F true) = some (.ok (.idData 0x04FD007F [0x01, 0x00, 0x00, 0x00, 0x00, 0x00, 0x00, 0x00])) := by decide

theorem test_extSetZero : answerOf (.extSetZero 0xFD 0x7F) = some (.ok (.idData 0x06FD007F [0x01, 0x00, 0x00, 0x00, 0x00, 0x00, 0x00, 0x00])) := by decide

theorem test_extSetAddr : answerOf (.extSetAddr 0xFD 0x7F 0x10) = some (.ok (.idData 0x0710FD7F [0x00, 0x00, 0x00, 0x00, 0x00, 0x00, 0x00, 0x00])) := by decide

theorem test_extParamRead : answerOf (.extParamRead 0xFD 0x7F 0x7005) = some (.ok (.idData 0x11FD007F [0x05, 0x70, 0x00, 0x00, 0x00, 0x00, 0x00, 0x00])) := by decide

theorem test_extParamWrite_a : answerOf (.extParamWrite 0xFD 0x7F 0x7003 (.i16 (-2))) = some (.ok (.idData 0x12FD007F [0x03, 0x70, 0x00, 0x00, 0xFE, 0xFF, 0x00, 0x00])) := by decide

theorem test_extParamWrite_b : answerOf (.extParamWrite 0xFD 0x7F 0x7004 (.u8 256)) = some (.error (.range 256)) := by decide

theorem test_extFaultReq : answerOf (.extFaultReq 0xFD 0x7F) = some (.ok (.idData 0x15FD007F [0x00, 0x00, 0x00, 0x00, 0x00, 0x00, 0x00, 0x00])) := by decide

theorem test_extSaveParams : answerOf (.extSaveParams 0xFD 0x7F) = some (.ok (.idData 0x16FD007F [0x01, 0x02, 0x03, 0x04, 0x05, 0x06, 0x07, 0x08])) := by decide

theorem test_extSetBaud : answerOf (.extSetBaud 0xFD 0x7F 2) = some (.ok (.idData 0x17FD007F [0x01, 0x02, 0x03, 0x04, 0x05, 0x06, 0x02, 0x00])) := by decide

theorem test_extSetActiveReport : answerOf (.extSetActiveReport 0xFD 0x7F 1) = some (.ok (.idData 0x18FD007F [0x01, 0x02, 0x03, 0x04, 0x05, 0x06, 0x01, 0x00])) := by decide

theorem test_extSetProtocol : answerOf (.extSetProtocol 0xFD 0x7F 1) = some (.ok (.idData 0x19FD007F [0x01, 0x02, 0x03, 0x04, 0x05, 0x06, 0x01, 0x00])) := by decide

theorem test_extReadVersion : answerOf (.extReadVersion 0xFD 0x7F) = some (.ok (.idData 0x04FD007F [0x00, 0xC4, 0x00, 0x00, 0x00, 0x00, 0x00, 0x00])) := by decide

theorem test_extClassify_a : answerOf (.extClassify 0xE2000000) = some (.ok (.decoder .feedback)) := by decide

theorem test_extClassify_b : answerOf (.extClassify 0x04007FFD) = some (.ok (.decoder .raw)) := by decide

theorem test_extDecDeviceId : answerOf (.extDecDeviceId 0x00007FFD [0x01, 0x23, 0x45, 0x67, 0x89, 0xAB, 0xCD, 0xEF]) = some (.ok (.deviceId 0x7F 0x0123456789ABCDEF)) := by decide

theorem test_extDecFeedback_a : answerOf (.extDecFeedback 0x02857FFD [0x00, 0xC4, 0x56, 0x01, 0x02, 0x03, 0x04, 0x00]) = some (.ok (.extVersion 0x7F 5 2 1 2 3 4)) := by decide

theorem test_extDecFeedback_b : answerOf (.extDecFeedback 0x020001FD [0xFF, 0xFF, 0x00, 0x00, 0x7F, 0xFF, 0xFF, 0xF6]) = some (.ok (.extFeedback 1 0 0 0x41491EB8 0xC2040000 0xB9600000 0xBF800000)) := by decide

theorem test_extDecParamRead_a : answerOf (.extDecParamRead 0x1100FD7F [0x05, 0x70, 0x00, 0x00, 0x00, 0x00, 0xC0, 0x3F]) = some (.ok (.paramRead 0x7005 true [0,0,0xC0,0x3F] 0x3FC00000 0x3FC00000)) := by decide

theorem test_extDecParamRead_b : answerOf (.extDecParamRead 0x1101FD7F [0x05, 0x70, 0x00, 0x00, 0x00, 0x00, 0x00, 0x00]) = some (.ok (.paramRead 0x7005 false [0,0,0,0] 0 0)) := by decide

theorem test_extDecFault : answerOf (.extDecFault [0x00, 0x00, 0x01, 0x00, 0xFF, 0xFF, 0xFF, 0xFF]) = some (.ok (.faultWord 0x10000)) := by decide

theorem test_faultMatch_a : answerOf (.faultMatch 0xFFFFFFFF) = some (.ok (.faultMatch 0xFFFFFFFF 0x143BF 11)) := by decide

theorem test_faultMatch_b : answerOf (.faultMatch 0x8440) = some (.ok (.faultMatch 0x8440 0 0)) := by decide

/-- P3, line 2, by `SEND_EXT`. -/
theorem test_sendExt : (match sendExt (.extParamWrite 0xFD 0x7F 0x7005 (.f32 0x3FC00000)) State.reset with
      | .next t => t.answer
      | .fault _ => none
      | .refused _ => none) =
    some (.ok (.frame [0x88, 0x12, 0xFD, 0x00, 0x7F, 0x05, 0x70, 0, 0, 0, 0, 0xC0, 0x3F])) := by decide

/-- Rule R141: each bound is the binary32 nearest its decimal literal. -/
theorem test_domain_bounds : pos16.max = pack32 0 (binary32.ofRatio false 1257 100) ∧
    pos16.min = pack32 0 (binary32.ofRatio true 1257 100) ∧
    vel12.max = pack32 0 (binary32.ofRatio false 33 1) ∧ kp12.max = pack32 0 (binary32.ofRatio false 500 1) ∧
    kd12.max = pack32 0 (binary32.ofRatio false 5 1) ∧ tq12.min = pack32 0 (binary32.ofRatio true 14 1) := by
  decide

/-- Rule R143's corner case for one bit, where `xc -f min` overflows: 2^127 over the widest span. -/
theorem test_overflowCode_oneBit : encodeCode .binary32 0x7F000000 0xFF7FFFFF 0x7F7FFFFF 1 = 0 := by decide

/-- Rule R3 and rule R223: the fault mask. -/
theorem test_faultMask : faultMask = 0x000143BF := by decide

/-! For each statement with hypotheses, states and operands that meet them all, each clause at a boundary. -/

theorem witness_StepRunsTheDecodedOperation :
    (issuing ⟨0x10, [.u8 0x5A]⟩).pending = ⟨0x10, [.u8 0x5A]⟩ :: [] ∧
    decode ⟨0x10, [.u8 0x5A]⟩ = .instr (.frmFeed 0x5A) ∧ State.reset.pending = [] := ⟨rfl, rfl, rfl⟩

theorem witness_UnassignedCodeRaisesIllegalOp :
    (issuing ⟨0x66, [.u8 1]⟩).pending = ⟨0x66, [.u8 1]⟩ :: [] ∧
    (0x66#8).toNat ∉ [0x01, 0x02, 0x10, 0x11, 0x12, 0x13, 0x20, 0x21,
      0x30, 0x31, 0x32, 0x33, 0x34, 0x35, 0x36,
      0x40, 0x41, 0x42, 0x43, 0x44, 0x45, 0x46, 0x47, 0x48, 0x49, 0x4A,
      0x50, 0x51, 0x52, 0x53, 0x54, 0x55, 0x56, 0x57, 0x58, 0x59, 0x5A, 0x5B, 0x5C,
      0x60, 0x61, 0x62, 0x63, 0x64, 0x65] := ⟨rfl, by decide⟩

theorem witness_OperandTypesAreCheckedAtTheRequest :
    (issuing ⟨0x10, [.u16 1]⟩).pending = ⟨0x10, [.u16 1]⟩ :: [] ∧
    decode ⟨0x10, [.u16 1]⟩ = .operandTypes 0x10 := ⟨rfl, rfl⟩

theorem witness_StepKeepsTheInvariant :
    { fed [0x5A] with pending := [⟨0x10, [.u8 0xA5]⟩] }.Inv ∧
    ∃ t, step { fed [0x5A] with pending := [⟨0x10, [.u8 0xA5]⟩] } = .next t :=
  ⟨⟨⟨rfl, rfl⟩, fun _ h => nomatch h⟩, _, rfl⟩

theorem witness_UndefinedBytesAreNeverRead :
    State.reset.fs.Inv ∧ State.reset.fs.Agree (resetFs State.reset).fs :=
  ⟨rfl, rfl, rfl, fun h => (nomatch h), fun k h => absurd h (Nat.not_lt_zero k)⟩

theorem witness_ErrorsWriteNoState :
    exec (.canParse []) State.reset = .next (State.reset.failing (.length 0)) ∧
    (State.reset.failing (.length 0)).answer = some (.error (.length 0)) := ⟨rfl, rfl⟩

theorem witness_QuantizerErrorsNameTheirOperands : (0 : Byte).toNat < 1 ∧ 16 < (17 : Byte).toNat ∧
    2 ^ (12 : Byte).toNat - 1 < (4096 : U32).toNat ∧ (4095 : U32).toNat ≤ 2 ^ (12 : Byte).toNat - 1 ∧
    (¬∃ lo hi, value32 0x3F800000 = some lo ∧ value32 0 = some hi ∧ lo < hi) ∧
    (∃ lo hi, value32 0xC2040000 = some lo ∧ value32 0x42040000 = some hi ∧ lo < hi) ∧
    (0x7F800001 : F32).extractLsb' 23 8 = 0xFF#8 ∧ (0x7F800001 : F32).extractLsb' 0 23 ≠ 0#23 := by
  refine ⟨by decide, by decide, by decide, by decide, ?_, ⟨_, _, rfl, rfl, by decide +kernel⟩, by decide,
    by decide⟩
  rintro ⟨lo, hi, h₁, h₂, h⟩
  have e₁ : value32 0x3F800000 = some 1 := by decide +kernel
  have e₂ : value32 0 = some 0 := by decide +kernel
  rw [h₁] at e₁
  rw [h₂] at e₂
  injection e₁ with e₁
  injection e₂ with e₂
  rw [e₁, e₂] at h
  norm_num at h

theorem witness_PureOperationsDependOnTheirOperandsAlone : Instr.usesFs .stdEnable = false := by decide

theorem witness_CrcDetectsAChangedByte : (0x00 : Byte) ≠ 0x80 := by decide

theorem witness_FeedInWaitSync1 : State.reset.fs.phase = .waitSync1 ∧ (0x5B : Byte) ≠ 0x5A := by decide

theorem witness_FeedInWaitSync2 : (fed [0x5A]).fs.phase = .waitSync2 ∧ (0x5A : Byte) ≠ 0xA5 := by decide

theorem witness_FeedInReadHeader_stores :
    (fed [0x5A, 0xA5, 0, 0]).fs.Inv ∧ (fed [0x5A, 0xA5, 0, 0]).fs.phase = .readHeader ∧
    (fed [0x5A, 0xA5, 0, 0]).fs.count.toNat = 4 := ⟨⟨by decide, by decide, by decide, by decide⟩, by decide, by decide⟩

/-- Lengths 1 and 506 are accepted. -/
theorem witness_FeedInReadHeader_accepts :
    (fed [0x5A, 0xA5, 0xFA, 0x01, 0]).fs.Inv ∧ (fed [0x5A, 0xA5, 0xFA, 0x01, 0]).fs.phase = .readHeader ∧
    (fed [0x5A, 0xA5, 0xFA, 0x01, 0]).fs.count.toNat = 5 ∧
    ((fed [0x5A, 0xA5, 0xFA, 0x01, 0]).fs.buf[3] ++ (fed [0x5A, 0xA5, 0xFA, 0x01, 0]).fs.buf[2]).toNat = 506 ∧
    ((fed [0x5A, 0xA5, 0x01, 0x00, 0]).fs.buf[3] ++ (fed [0x5A, 0xA5, 0x01, 0x00, 0]).fs.buf[2]).toNat = 1 :=
  ⟨⟨by decide, by decide, by decide, by decide⟩, by decide, by decide, by decide, by decide⟩

/-- Lengths 0 and 507 are rejected. -/
theorem witness_FeedInReadHeader_rejects :
    (fed [0x5A, 0xA5, 0xFB, 0x01, 0]).fs.Inv ∧ (fed [0x5A, 0xA5, 0xFB, 0x01, 0]).fs.phase = .readHeader ∧
    (fed [0x5A, 0xA5, 0xFB, 0x01, 0]).fs.count.toNat = 5 ∧
    ((fed [0x5A, 0xA5, 0xFB, 0x01, 0]).fs.buf[3] ++ (fed [0x5A, 0xA5, 0xFB, 0x01, 0]).fs.buf[2]).toNat = 507 ∧
    ((fed [0x5A, 0xA5, 0x00, 0x00, 0]).fs.buf[3] ++ (fed [0x5A, 0xA5, 0x00, 0x00, 0]).fs.buf[2]).toNat = 0 :=
  ⟨⟨by decide, by decide, by decide, by decide⟩, by decide, by decide, by decide, by decide⟩

theorem witness_FeedInReadPayload_stores :
    (fed [0x5A, 0xA5, 2, 0, 0, 0]).fs.Inv ∧ (fed [0x5A, 0xA5, 2, 0, 0, 0]).fs.phase = .readPayload ∧
    (fed [0x5A, 0xA5, 2, 0, 0, 0]).fs.count.toNat + 1 < 6 + (fed [0x5A, 0xA5, 2, 0, 0, 0]).fs.len.toNat :=
  ⟨⟨by decide, by decide, by decide, by decide, by decide, by decide, by decide⟩, by decide, by decide⟩

theorem witness_FeedInReadPayload_completes :
    (fed [0x5A, 0xA5, 1, 0, 0, 0]).fs.Inv ∧ (fed [0x5A, 0xA5, 1, 0, 0, 0]).fs.phase = .readPayload ∧
    (fed [0x5A, 0xA5, 1, 0, 0, 0]).fs.count.toNat + 1 = 6 + (fed [0x5A, 0xA5, 1, 0, 0, 0]).fs.len.toNat :=
  ⟨⟨by decide, by decide, by decide, by decide, by decide, by decide, by decide⟩, by decide, by decide⟩

theorem witness_EncodeBuildsTheFrame : (zeros 1).length = 1 ∧ (zeros 506).length = 506 ∧
    (zeros 0).length = 0 ∧ (zeros 507).length = 507 := ⟨rfl, rfl, rfl, rfl⟩

theorem witness_EncodedFrameIsDelivered : State.reset.fs.phase = .waitSync1 ∧ 1 ≤ (zeros 506).length ∧
    (zeros 506).length ≤ 506 := by decide

theorem witness_CorruptedPayloadByteIsRejected : State.reset.fs.phase = .waitSync1 ∧
    1 ≤ ([0x01] : List Byte).length ∧ ([0x01] : List Byte).length ≤ 506 ∧ 0 < ([0x01] : List Byte).length ∧
    ([0x01] : List Byte)[0]? ≠ some 0x00 := by decide

theorem witness_ArithmeticIsCorrectlyRounded :
    (Fp.fin true 3).value binary32 = some (-3 / 2 ^ 149) ∧
    (Fp.fin false (2 ^ 149)).value binary32 = some 1 ∧ (1 : ℚ) ≠ 0 := by
  refine ⟨?_, ?_, ?_⟩ <;> norm_num [Fp.value, signed, binary32]

/-- The velocity bounds and two operands, as numbers. -/
theorem witness_values : value32 0xC2040000 = some (-33) ∧ value32 0x42040000 = some 33 ∧
    value32 0x3F800000 = some 1 ∧ value32 0x42200000 = some 40 ∧ value32 0xC2200000 = some (-40) ∧
    value32 0x80000000 = some 0 := by
  decide +kernel

/-- The extreme bounds, whose span overflows, are bounds the rules admit. -/
theorem witness_QEncodeCodeIsInRange : value32 0xFF7FFFFF = some (-(2 ^ 128 - 2 ^ 104)) ∧
    value32 0x7F7FFFFF = some (2 ^ 128 - 2 ^ 104) ∧
    2 ^ 128 - 2 ^ 103 ≤ (2 ^ 128 - 2 ^ 104 : ℚ) - -(2 ^ 128 - 2 ^ 104) ∧
    (unpack32 0x7F800000).isNan = false ∧ (unpack32 0x7F7FFFFE).lt (unpack32 0x7F7FFFFF) = true ∧
    (1 : Byte).toNat = 1 ∧ 1 ≤ (16 : Byte).toNat ∧ (16 : Byte).toNat ≤ 16 :=
  ⟨by decide +kernel, by decide +kernel, by norm_num, by decide, by decide, by decide, by decide, by decide⟩

theorem witness_QEncodeFollowsTheFormula : 1 ≤ (16 : Byte).toNat ∧ (16 : Byte).toNat ≤ 16 ∧
    value32 0x00000000 = some 0 ∧ value32 0x7B800000 = some (2 ^ 120) ∧ value32 0x76800000 = some (2 ^ 110) ∧
    binary32.Nearest (2 ^ 110 - 0) (2 ^ 110) ∧ (2 ^ 110 : ℚ) * (2 ^ 16 - 1) < 2 ^ 128 - 2 ^ 103 ∧
    (2 ^ 120 : ℚ) - 0 < 2 ^ 128 - 2 ^ 103 := by
  refine ⟨by decide, by decide, by decide +kernel, by decide +kernel, by decide +kernel, ?_, by norm_num,
    by norm_num⟩
  rw [sub_zero]
  exact nearest_self ⟨false, 236, 2 ^ 23, by decide, by decide, by norm_num [signed, binary32]⟩

/-- The widest bounds, whose span overflows, and the lowest operand over them. -/
theorem witness_QEncodeFollowsTheFormula_wide : value32 0xFF7FFFFF = some (-(2 ^ 128 - 2 ^ 104)) ∧
    value32 0x7F7FFFFF = some (2 ^ 128 - 2 ^ 104) ∧ 2 ^ 128 - 2 ^ 103 ≤ (2 ^ 128 - 2 ^ 104 : ℚ) - -(2 ^ 128 - 2 ^ 104) ∧
    (-(2 ^ 128 - 2 ^ 104) : ℚ) - -(2 ^ 128 - 2 ^ 104) < 2 ^ 128 - 2 ^ 103 ∧
    binary32.Nearest (-(2 ^ 128 - 2 ^ 104) - -(2 ^ 128 - 2 ^ 104)) 0 ∧ (0 : ℚ) * (2 ^ 16 - 1) < 2 ^ 128 - 2 ^ 103 := by
  refine ⟨by decide +kernel, by decide +kernel, by norm_num, by norm_num, ?_, by norm_num⟩
  rw [sub_self]
  exact nearest_self ⟨false, 0, 0, by decide, by decide, by norm_num [signed]⟩

theorem witness_QEncodeIsMonotone : 1 ≤ (1 : Byte).toNat ∧ (1 : Byte).toNat ≤ 16 ∧
    (∃ lo, value32 0xFF7FFFFF = some lo ∧ lo < 0) ∧ (∃ hi, value32 0x7F7FFFFF = some hi ∧ 0 < hi) ∧
    (unpack32 0x80000000).isNan = false ∧ (unpack32 0x7F800000).isNan = false ∧
    (unpack32 0x00000000).lt (unpack32 0x80000000) = false ∧
    (unpack32 0x7F800000).lt (unpack32 0xFF800000) = false := by
  refine ⟨by decide, by decide, ⟨_, rfl, ?_⟩, ⟨_, rfl, ?_⟩, by decide, by decide, by decide, by decide⟩ <;>
    decide +kernel

theorem witness_QEncodeClampsItsInput : value32 0xC2040000 = some (-33) ∧ value32 0x42040000 = some 33 ∧
    ((-33 : ℚ) < 33) ∧ (∃ v, value32 0xC2200000 = some v ∧ v < -33) ∧
    ∃ v, value32 0x42200000 = some v ∧ 33 < v :=
  ⟨by decide +kernel, by decide +kernel, by norm_num, ⟨-40, by decide +kernel, by norm_num⟩,
    40, by decide +kernel, by norm_num⟩

theorem witness_QDecodeFollowsTheFormula : 1 ≤ (16 : Byte).toNat ∧ (16 : Byte).toNat ≤ 16 ∧
    (0xFFFF : U32).toNat ≤ 2 ^ (16 : Byte).toNat - 1 ∧ (1 : U32).toNat ≤ 2 ^ (16 : Byte).toNat - 1 ∧
    value32 0x00000000 = some 0 ∧ value32 0x7B800000 = some (2 ^ 120) ∧
    (2 ^ 120 : ℚ) - 0 < 2 ^ 128 - 2 ^ 103 ∧ binary32.Nearest (2 ^ 120 - 0) (2 ^ 120) ∧
    (1 : ℚ) * 2 ^ 120 < 2 ^ 128 - 2 ^ 103 ∧ (2 ^ 128 - 2 ^ 103 : ℚ) ≤ 65535 * 2 ^ 120 := by
  refine ⟨by decide, by decide, by decide, by decide, by decide +kernel, by decide +kernel, by norm_num, ?_,
    by norm_num, by norm_num⟩
  rw [sub_zero]
  exact nearest_self ⟨false, 246, 2 ^ 23, by decide, by decide, by norm_num [signed, binary32]⟩

/-- The widest bounds, whose span overflows, with a code above 0. -/
theorem witness_QDecodeFollowsTheFormula_wide : value32 0xFF7FFFFF = some (-(2 ^ 128 - 2 ^ 104)) ∧
    value32 0x7F7FFFFF = some (2 ^ 128 - 2 ^ 104) ∧ 2 ^ 128 - 2 ^ 103 ≤ (2 ^ 128 - 2 ^ 104 : ℚ) - -(2 ^ 128 - 2 ^ 104) ∧ (1 : U32) ≠ 0 ∧
    (1 : U32).toNat ≤ 2 ^ (1 : Byte).toNat - 1 :=
  ⟨by decide +kernel, by decide +kernel, by norm_num, by decide, by decide⟩

theorem witness_QDecodeOfZeroIsMin : value32 0x80000000 = some 0 ∧ value32 0x3F800000 = some 1 ∧
    (1 : ℚ) - 0 < 2 ^ 128 - 2 ^ 103 ∧ value32 0xFF7FFFFF = some (-(2 ^ 128 - 2 ^ 104)) ∧
    value32 0x7F7FFFFF = some (2 ^ 128 - 2 ^ 104) ∧
    2 ^ 128 - 2 ^ 103 ≤ (2 ^ 128 - 2 ^ 104 : ℚ) - -(2 ^ 128 - 2 ^ 104) :=
  ⟨by decide +kernel, by decide +kernel, by norm_num, by decide +kernel, by decide +kernel, by norm_num⟩

theorem witness_DomainEndpointsAreExact : pos16 ∈ domains ∧ tq16 ∈ domains := by decide

theorem witness_DecodedCodesEncodeBack : vel12 ∈ domains ∧ 4095 < 2 ^ vel12.bits.toNat ∧
    4094 + 1 < 2 ^ vel12.bits.toNat := by decide

theorem witness_QuantizedValueIsNear : vel16 ∈ domains ∧ value32 vel16.min = some (-33) ∧
    value32 vel16.max = some 33 ∧ value32 0x3F800000 = some 1 ∧ (-33 : ℚ) ≤ 1 ∧ (1 : ℚ) ≤ 33 :=
  ⟨by decide, by decide +kernel, by decide +kernel, by decide +kernel, by norm_num, by norm_num⟩

theorem witness_CanBuildersBuildTheFrame : (zeros 8).length = 8 ∧ (0x7FF : U32).toNat ≤ 0x7FF ∧
    (0x1FFFFFFF : U32).toNat ≤ 0x1FFFFFFF ∧ (zeros 7).length ≠ 8 ∧ 0x7FF < (0x800 : U32).toNat ∧
    0x1FFFFFFF < (0x20000000 : U32).toNat := by decide

theorem witness_BuiltFramesAreThirteenBytes :
    (∃ f, exec (.canBuildStd 0x7FF (zeros 8)) State.reset = .next (State.reset.answering (.frame f))) ∧
    ∃ f, exec (.canBuildExt 0x1FFFFFFF (zeros 8)) State.reset = .next (State.reset.answering (.frame f)) :=
  ⟨⟨_, rfl⟩, _, rfl⟩

theorem witness_CanParseAndClassify : (zeros 8).length = 8 ∧ (zeros 12).length ≠ 13 ∧
    (0x3F : Byte).toNat / 64 = 0 ∧ (0x80 : Byte).toNat / 64 = 2 ∧ (0x40 : Byte).toNat / 64 = 1 ∧
    (0xFF : Byte).toNat / 64 = 3 := by decide

theorem witness_IdentifierFields : (7 : Byte).toNat < 8 ∧ 8 ≤ (8 : Byte).toNat := by decide

theorem witness_ParsingInvertsBuilding : (0x7FF : U32).toNat ≤ 0x7FF ∧
    (0x1FFFFFFF : U32).toNat ≤ 0x1FFFFFFF ∧ (zeros 8).length = 8 ∧ (31 : Byte).toNat < 32 := by decide

theorem witness_SentinelOverlap : (0x00 : Byte) ≠ 0xFF := by decide

theorem witness_StandardFeedbackDecode : (zeros 7).length ≠ 8 := by decide

theorem witness_ParameterWrite : (0 : Int) ≤ 0xFF ∧ (0xFF : Int) < 0x100 ∧ (-1 : Int) < 0 ∧
    (-32768 : Int) ≤ 32767 ∧ (-32769 : Int) < -32768 ∧ (32767 : Int) < 32768 ∧
    (0xFFFF : Int) < 0x10000 ∧ (0xFFFFFFFF : Int) < 0x100000000 := by decide

theorem witness_ParameterWriteReadsBack : (0x11007FFD : U32).toNat / 2 ^ 16 % 256 = 0 := by decide

theorem witness_ExtendedReplies : (zeros 9).length ≠ 8 := by decide

theorem witness_ExtendedFeedbackDecode : ((0x00 : Byte) = 0x00 ∧ (0xC4 : Byte) = 0xC4 ∧ (0x56 : Byte) = 0x56) ∧
    ¬((0x00 : Byte) = 0x00 ∧ (0xC4 : Byte) = 0xC4 ∧ (0x57 : Byte) = 0x56) ∧ (zeros 7).length ≠ 8 := by decide

theorem witness_SendChainsBuildTheFrame : (7 : Byte).toNat < 8 ∧ 8 ≤ (8 : Byte).toNat ∧
    exec (.extParamWrite 0 0 0 (.string [])) State.reset = .next (State.reset.failing (.type 5)) ∧
    (∃ d, exec .stdEnable State.reset = .next (State.reset.answering (.data d))) ∧
    ∃ i d, exec (.extEnable 0xFD 0x7F) State.reset = .next (State.reset.answering (.idData i d)) :=
  ⟨by decide, by decide, rfl, ⟨_, rfl⟩, _, _, rfl⟩

theorem witness_RecvChoosesTheDecoder : (zeros 8).length = 8 := by decide

end Sys2Proof.Tests
end

/-! Rule R28: the combinations of its table, and the sizes of the result ports (rule R61), are kept by every
step. First the bytes of `FS.buf`, then one byte fed in each phase, then the results of the pure
operations, then the step. -/

namespace Sys2Proof.Machine

/-! The bytes of `FS.buf`. -/

theorem byteAt_bytes (fs : Fs) {i : Nat} (h : i < constants.maxFrame) :
    byteAt fs.bytes i = fs.buf[i] := by
  simp [byteAt, Fs.bytes, h]

theorem store_getElem_self (fs : Fs) {i : Nat} (b : Byte) (h : i < constants.maxFrame) :
    (fs.store i b).buf[i] = b := by
  simp

/-- A push leaves the defined bytes alone. -/
theorem push_get_of_lt (fs : Fs) (b : Byte) {i : Nat} (h : i < fs.count.toNat)
    (hi : i < constants.maxFrame) : (fs.push b).buf[i] = fs.buf[i] := by
  simp only [push_buf]
  exact Vector.getElem_setIfInBounds_ne hi (by omega)

theorem le16_bytes (fs : Fs) : le16 fs.bytes 2 = fs.buf[3] ++ fs.buf[2] := by
  rw [le16, byteAt_bytes fs (by decide), byteAt_bytes fs (by decide)]

/-! Rule R28's table, a row at a time. -/

theorem inv_waitSync1 {fs : Fs} (hp : fs.phase = .waitSync1) : fs.Inv ↔ fs.count.toNat = 0 := by
  simp [Fs.Inv, hp]

theorem inv_waitSync2 {fs : Fs} (hp : fs.phase = .waitSync2) :
    fs.Inv ↔ fs.count.toNat = 1 ∧ fs.buf[0] = 0x5A := by
  simp [Fs.Inv, hp]

theorem inv_readHeader {fs : Fs} (hp : fs.phase = .readHeader) :
    fs.Inv ↔ 2 ≤ fs.count.toNat ∧ fs.count.toNat ≤ 5 ∧ fs.buf[0] = 0x5A ∧ fs.buf[1] = 0xA5 := by
  simp [Fs.Inv, hp]

theorem inv_readPayload {fs : Fs} (hp : fs.phase = .readPayload) :
    fs.Inv ↔ 6 ≤ fs.count.toNat ∧ fs.count.toNat ≤ 5 + fs.len.toNat ∧
      1 ≤ fs.len.toNat ∧ fs.len.toNat ≤ 506 ∧
      fs.buf[0] = 0x5A ∧ fs.buf[1] = 0xA5 ∧ fs.len = fs.buf[3] ++ fs.buf[2] := by
  simp [Fs.Inv, hp]

/-! One byte: the synchronizer's state. -/

theorem resetFs_inv (s : State) : (resetFs s).fs.Inv :=
  (inv_waitSync1 (resetFs_phase s)).2 rfl

theorem feedWaitSync1_inv (b : Byte) {s : State} (h : s.fs.Inv) : (feedWaitSync1 b s).1.fs.Inv := by
  unfold feedWaitSync1
  split
  · next hb =>
    exact (inv_waitSync2 rfl).2 ⟨rfl, (store_getElem_self s.fs b (by decide)).trans hb⟩
  · exact h

theorem feedWaitSync2_inv (b : Byte) {s : State} (hp : s.fs.phase = .waitSync2) (h : s.fs.Inv) :
    (feedWaitSync2 b s).1.fs.Inv := by
  obtain ⟨-, b0⟩ := (inv_waitSync2 hp).1 h
  unfold feedWaitSync2
  split
  · next hb =>
    refine (inv_readHeader rfl).2 ⟨by simp, by simp, ?_, (store_getElem_self s.fs b (by decide)).trans hb⟩
    simpa using b0
  · exact resetFs_inv s

/-- Six bytes make the header; until then it is being read, and a length within the limits (rule R114) is
the one its bytes 2 and 3 spell. -/
theorem feedReadHeader_inv (b : Byte) {s : State} (hp : s.fs.phase = .readHeader) (h : s.fs.Inv) :
    (feedReadHeader b s).1.fs.Inv := by
  obtain ⟨lo, hi, b0, b1⟩ := (inv_readHeader hp).1 h
  have hc : (s.fs.push b).count.toNat = s.fs.count.toNat + 1 :=
    push_count_toNat s.fs b (by rw [maxFrame_eq]; omega)
  have b0' : (s.fs.push b).buf[0] = 0x5A := (push_get_of_lt s.fs b (by omega) _).trans b0
  have b1' : (s.fs.push b).buf[1] = 0xA5 := (push_get_of_lt s.fs b (by omega) _).trans b1
  simp only [feedReadHeader]
  split
  · next hdr =>
    have hdr6 : (s.fs.push b).count.toNat = 6 := hdr
    split
    · exact resetFs_inv s
    · next hlen =>
      obtain ⟨hne, hle⟩ := not_or.1 hlen
      have l1 : 1 ≤ (le16 (s.fs.push b).bytes 2).toNat :=
        Nat.one_le_iff_ne_zero.2 fun h0 => hne (BitVec.eq_of_toNat_eq h0)
      have l2 : (le16 (s.fs.push b).bytes 2).toNat ≤ 506 :=
        Nat.le_of_add_le_add_left (a := 6) (Nat.not_lt.1 hle)
      exact (inv_readPayload rfl).2
        ⟨hdr6.ge, hdr6.trans_le (Nat.add_le_add_left l1 5), l1, l2, b0', b1', le16_bytes _⟩
  · next hdr =>
    have hdr6 : (s.fs.push b).count.toNat ≠ 6 := hdr
    exact (inv_readHeader (fs := s.fs.push b) hp).2 ⟨by omega, by omega, b0', b1'⟩

/-- The frame's last byte resets; before it the header's bytes stay as they are. -/
theorem feedReadPayload_inv (b : Byte) {s : State} (hp : s.fs.phase = .readPayload) (h : s.fs.Inv) :
    (feedReadPayload b s).1.fs.Inv := by
  obtain ⟨lo, hi, l1, l2, b0, b1, hlen⟩ := (inv_readPayload hp).1 h
  have hc : (s.fs.push b).count.toNat = s.fs.count.toNat + 1 :=
    push_count_toNat s.fs b (by rw [maxFrame_eq]; omega)
  have same : ∀ {i : Nat} (hi : i < constants.maxFrame), i < 4 →
      (s.fs.push b).buf[i] = s.fs.buf[i] := fun hi _ => push_get_of_lt s.fs b (by omega) hi
  simp only [feedReadPayload]
  split
  · exact resetFs_inv s
  · next hend =>
    have hend6 : (s.fs.push b).count.toNat ≠ 6 + s.fs.len.toNat := hend
    refine (inv_readPayload (fs := s.fs.push b) hp).2 ⟨by omega, ?_, l1, l2, ?_, ?_, ?_⟩
    · rw [push_len]; omega
    · exact (same _ (by decide)).trans b0
    · exact (same _ (by decide)).trans b1
    · rw [push_len, same _ (by decide), same _ (by decide)]
      exact hlen

/-- A byte keeps rule R28's table. -/
theorem feedByte_inv (b : Byte) {s : State} (h : s.fs.Inv) : (feedByte b s).1.fs.Inv := by
  cases hp : s.fs.phase with
  | waitSync1 => rw [feedByte_waitSync1 b hp]; exact feedWaitSync1_inv b h
  | waitSync2 => rw [feedByte_waitSync2 b hp]; exact feedWaitSync2_inv b hp h
  | readHeader => rw [feedByte_readHeader b hp]; exact feedReadHeader_inv b hp h
  | readPayload => rw [feedByte_readPayload b hp]; exact feedReadPayload_inv b hp h

/-! One byte: the event. -/

theorem slice_length {bs : List Byte} {a b : Nat} (h : b ≤ bs.length) : (slice bs a b).length = b - a := by
  simp [slice, h]

/-- Rule R116's gate reads the first byte of a payload long enough to have one. -/
theorem recordGate_eq_true (payload : List Byte) :
    recordGate payload = true ↔ payload[0]? = some 0x91 ∧ 76 ≤ payload.length := by
  cases payload <;> simp [recordGate, constants, byteAt]

/-- Only the phase that ends a frame gives an event (rules R112 to R114). -/
theorem feedByte_event_eq_none (b : Byte) {s : State} (hp : s.fs.phase ≠ .readPayload) :
    (feedByte b s).2 = .none := by
  cases hp' : s.fs.phase with
  | waitSync1 => rw [feedByte_waitSync1 b hp', feedWaitSync1]; split <;> rfl
  | waitSync2 => rw [feedByte_waitSync2 b hp', feedWaitSync2]; split <;> rfl
  | readHeader =>
    rw [feedByte_readHeader b hp']
    simp only [feedReadHeader]
    split
    · split <;> rfl
    · rfl
  | readPayload => exact absurd hp' hp

/-- The payload a frame delivers has the length its header declares. -/
theorem feedReadPayload_event_wf (b : Byte) {s : State} (hp : s.fs.phase = .readPayload)
    (h : s.fs.Inv) : (feedReadPayload b s).2.Wf := by
  obtain ⟨-, -, l1, l2, -⟩ := (inv_readPayload hp).1 h
  simp only [feedReadPayload]
  split
  · split
    · have hlen : (slice (s.fs.push b).bytes constants.hdrLen
          (constants.hdrLen + (s.fs.push b).len.toNat)).length = s.fs.len.toNat := by
        rw [slice_length, push_len, Nat.add_sub_cancel_left]
        rw [bytes_length, maxFrame_eq, push_len]
        exact Nat.add_le_add_left l2 6
      exact ⟨hlen.symm ▸ l1, hlen.symm ▸ l2, recordGate_eq_true _⟩
    · next hne => exact hne
  · trivial

/-- From a state of rule R28's table, a byte's event has the fields of rule R110's table. -/
theorem feedByte_event_wf (b : Byte) {s : State} (h : s.fs.Inv) : (feedByte b s).2.Wf := by
  by_cases hp : s.fs.phase = .readPayload
  · rw [feedByte_readPayload b hp]
    exact feedReadPayload_event_wf b hp h
  · rw [feedByte_event_eq_none b hp]
    trivial

/-! A batch of bytes (rule R117). -/

theorem feedBytes_inv (bs : List Byte) {s : State} (h : s.fs.Inv) : (feedBytes bs s).1.fs.Inv := by
  induction bs generalizing s with
  | nil => exact h
  | cons b bs ih => exact ih (feedByte_inv b h)

theorem feedBytes_events_wf (bs : List Byte) {s : State} (h : s.fs.Inv) :
    ∀ e ∈ (feedBytes bs s).2, e ≠ .none ∧ e.Wf := by
  induction bs generalizing s with
  | nil => simp
  | cons b bs ih =>
    have rest := ih (feedByte_inv b h)
    rw [feedBytes_cons_events]
    split
    · exact rest
    · next hne => exact List.forall_mem_cons.2 ⟨⟨hne, feedByte_event_wf b h⟩, rest⟩

/-! The sizes of the pure operations' result ports (rule R61). -/

/-- Results, if the operation's pseudocode comes to any, have rule R61's sizes. -/
def OkWf (x : Except Error Result) : Prop :=
  ∀ r, x = .ok r → r.Wf

theorem okWf_ok {r : Result} (hr : r.Wf) : OkWf (.ok r) :=
  fun _ he => Except.ok.inj he ▸ hr

theorem okWf_error (e : Error) : OkWf (.error e) :=
  fun _ he => nomatch he

/-- A check that raises its error leaves, where it passes, the rest of the pseudocode. -/
theorem okWf_check {c : Prop} [Decidable c] {e : Error} {x : Except Error Result}
    (h : ¬c → OkWf x) : OkWf (if c then .error e else x) := by
  split
  · exact okWf_error e
  · next hc => exact h hc

theorem encodeFrame_okWf (payload : List Byte) : OkWf (encodeFrame payload) :=
  okWf_check fun hlen => okWf_ok <| by
    simp only [not_or, constants] at hlen
    simp only [Result.Wf, frameOf, List.length_append, List.length_cons, List.length_nil, bytesLe_length]
    omega

theorem quantEncode_okWf (x min max : F32) (bits : Byte) : OkWf (quantEncode x min max bits) :=
  okWf_check fun _ => okWf_check fun _ => okWf_check fun _ => okWf_ok trivial

theorem quantDecode_okWf (u : U32) (min max : F32) (bits : Byte) :
    OkWf (quantDecode u min max bits) :=
  okWf_check fun _ => okWf_check fun _ => okWf_check fun _ => okWf_ok trivial

theorem canBuild_okWf (info : Byte) (maxId : Nat) (id : U32) (data : List Byte) :
    OkWf (canBuild info maxId id data) :=
  okWf_check fun hlen => okWf_check fun _ => okWf_ok <| by
    have h8 : data.length = 8 := not_not.1 hlen
    simp [Result.Wf, h8]

theorem canParse_okWf (frame : List Byte) : OkWf (canParse frame) :=
  okWf_check fun hlen => okWf_ok (slice_length (not_not.1 hlen).ge)

theorem shiftLeft_zeroExtend_lt {w k n : Nat} (v : BitVec w) (hv : v.toNat < 2 ^ n) :
    (v.zeroExtend 32 <<< k).toNat < 2 ^ (n + k) := by
  rw [BitVec.toNat_shiftLeft, BitVec.zeroExtend_eq_setWidth, BitVec.toNat_setWidth]
  refine lt_of_le_of_lt (Nat.mod_le _ _) ?_
  rw [Nat.shiftLeft_eq, Nat.pow_add]
  exact Nat.mul_lt_mul_of_pos_right (lt_of_le_of_lt (Nat.mod_le _ _) hv) (Nat.two_pow_pos k)

theorem zeroExtend_byte_lt (b : Byte) : (b.zeroExtend 32).toNat < 2 ^ 29 := by
  rw [BitVec.zeroExtend_eq_setWidth, BitVec.toNat_setWidth]
  exact (Nat.mod_le _ _).trans_lt (b.isLt.trans (by decide))

/-- A standard identifier is below bit 29 whatever the mode (rule R68). -/
theorem stdId_lt (mode address : Byte) : (stdId mode address).toNat < 2 ^ 29 := by
  rw [stdId, BitVec.toNat_or]
  exact Nat.or_lt_two_pow ((shiftLeft_zeroExtend_lt mode mode.isLt).trans (by decide))
    (zeroExtend_byte_lt address)

/-- The type field's mask keeps an extended identifier within its 29 bits (rules R69, R166). -/
theorem extId_lt (commandType : Byte) (aux16 : U16) (target : Byte) :
    (extId commandType aux16 target).toNat < 2 ^ 29 := by
  have hc : (commandType &&& 0x1F).toNat < 2 ^ 5 := by
    rw [BitVec.toNat_and]
    exact Nat.and_lt_two_pow _ (by decide)
  rw [extId, BitVec.toNat_or, BitVec.toNat_or]
  exact Nat.or_lt_two_pow (Nat.or_lt_two_pow (shiftLeft_zeroExtend_lt _ hc)
    ((shiftLeft_zeroExtend_lt aux16 aux16.isLt).trans (by decide))) (zeroExtend_byte_lt target)

theorem idMakeStd_okWf (mode address : Byte) : OkWf (idMakeStd mode address) :=
  okWf_check fun _ => okWf_ok (stdId_lt mode address)

theorem extCommandType_lt (id : U32) : (extCommandType id).toNat < 32 := by
  rw [extCommandType, BitVec.zeroExtend_eq_setWidth, BitVec.toNat_setWidth]
  exact (Nat.mod_le _ _).trans_lt (id.extractLsb' 24 5).isLt

theorem stdFeedback_okWf (data : List Byte) : OkWf (stdFeedback data) :=
  okWf_check fun _ => okWf_ok trivial

/-- An extended builder's ports, for a payload of `CAN_DLC` bytes. -/
theorem extBuild_wf (commandType : Byte) (aux16 : U16) (target : Byte) {data : List Byte}
    (h : data.length = constants.canDlc) : (extBuild commandType aux16 target data).Wf :=
  ⟨extId_lt commandType aux16 target, h⟩

/-- No `ParamValue` takes more than the four bytes after the index and its padding (rule R208). -/
theorem paramBytes_length_le {value : ParamValue} {v : List Byte} (h : paramBytes value = .ok v) :
    v.length ≤ 4 := by
  cases value with
  | u8 | u16 | u32 | i16 =>
    simp only [paramBytes] at h
    split_ifs at h
    cases h
    simp
  | f32 x => exact Except.ok.inj h ▸ (bytesLe_length x 4).le
  | string => cases h

theorem paramWrite_okWf (requester target : Byte) (index : U16) (value : ParamValue) :
    OkWf (paramWrite requester target index value) := by
  unfold paramWrite
  split
  · exact okWf_error _
  · next v hv =>
    refine okWf_ok (extBuild_wf _ _ _ (canPayload_length ?_))
    have := paramBytes_length_le hv
    simp [constants]
    omega

theorem decDeviceId_okWf (id : U32) (data : List Byte) : OkWf (decDeviceId id data) :=
  okWf_check fun _ => okWf_ok trivial

theorem decFeedback_okWf (id : U32) (data : List Byte) : OkWf (decFeedback id data) :=
  okWf_check fun _ => by
    split
    · exact okWf_ok trivial
    · exact okWf_ok trivial

/-- A word's low byte comes first (rule R40). -/
theorem bytesLe_append_byte {w : Nat} (v : BitVec w) (b : Byte) (n : Nat) :
    bytesLe (v ++ b) (n + 1) = b :: bytesLe v n := by
  simp only [bytesLe, List.range_succ_eq_map, List.map_cons, List.map_map]
  congr 1
  · rw [Nat.mul_zero, BitVec.extractLsb'_append_eq_of_add_le (Nat.le_refl _),
      BitVec.extractLsb'_eq_self]
  · exact List.map_congr_left fun k _ => BitVec.extractLsb'_append_eq_of_le (by omega)

/-- The four bytes of a parameter reply are the little-endian bytes of its word (rules R40, R221). -/
theorem slice_eq_bytesLe_le32 {data : List Byte} (h : data.length = 8) :
    slice data 4 8 = bytesLe (le32 data 4) 4 := by
  match data, h with
  | [_, _, _, _, d4, d5, d6, d7], _ =>
    have h7 : bytesLe d7 1 = [d7] := by simp [bytesLe]
    calc [d4, d5, d6, d7] = d4 :: d5 :: d6 :: bytesLe d7 1 := by rw [h7]
      _ = bytesLe (d7 ++ d6 ++ d5 ++ d4) 4 := by simp only [bytesLe_append_byte]

theorem decParamRead_okWf (id : U32) (data : List Byte) : OkWf (decParamRead id data) :=
  okWf_check fun hlen =>
    have h8 : data.length = 8 := not_not.1 hlen
    okWf_ok ⟨slice_length h8.ge, slice_eq_bytesLe_le32 h8⟩

theorem decFault_okWf (data : List Byte) : OkWf (decFault data) :=
  okWf_check fun _ => okWf_ok trivial

theorem faultMask_eq : faultMask = 0x000143BF := by decide

/-- A mask's set bits bound those of what it lets through. -/
theorem popcount_and_le (word mask : U32) : popcount (word &&& mask) ≤ popcount mask := by
  apply List.countP_mono_left
  intro i _ hi
  rw [BitVec.getLsbD_and, Bool.and_eq_true] at hi
  exact hi.2

/-- The count of matched faults is at most the eleven named ones (rule R223), so it fits its port. -/
theorem faultMatch_wf (word : U32) :
    (Result.faultMatch word (word &&& faultMask)
      (BitVec.ofNat 8 (popcount (word &&& faultMask)))).Wf := by
  have hle : popcount (word &&& faultMask) ≤ 11 :=
    (popcount_and_le word faultMask).trans (by decide)
  have hcount : (BitVec.ofNat 8 (popcount (word &&& faultMask))).toNat =
      popcount (word &&& faultMask) := by
    rw [BitVec.toNat_ofNat]
    exact Nat.mod_eq_of_lt (by omega)
  exact ⟨by rw [faultMask_eq], hcount, hcount.trans_le hle⟩

/-! Every pure operation (rule R49) answers alike in every state. -/

/-- The operation ends in every state with the same results, of rule R61's sizes, or with the same error. -/
def AnswersWf (i : Instr) : Prop :=
  ∃ x : Except Error Result, (∀ s, exec i s = finish x s) ∧ OkWf x

theorem answersWf_of_succeed {i : Instr} {r : Result} (h : ∀ s, exec i s = succeed r s)
    (hr : r.Wf) : AnswersWf i :=
  ⟨.ok r, h, okWf_ok hr⟩

theorem answersWf_of_finish {i : Instr} {x : Except Error Result} (h : ∀ s, exec i s = finish x s)
    (hx : OkWf x) : AnswersWf i :=
  ⟨x, h, hx⟩

/-- The builder pads the bytes its rule names, at most `CAN_DLC` of them, to a payload (rule R200). -/
theorem answersWf_of_extBuild {i : Instr} {commandType target : Byte} {aux16 : U16}
    {named : List Byte}
    (h : ∀ s, exec i s = succeed (extBuild commandType aux16 target (canPayload named)) s)
    (hl : named.length ≤ constants.canDlc) : AnswersWf i :=
  answersWf_of_succeed h (extBuild_wf _ _ _ (canPayload_length hl))

/-- A pure operation's answer depends on its operands alone (rule R49) and has rule R61's sizes. -/
theorem pure_answersWf (i : Instr) (h : i.usesFs = false) : AnswersWf i := by
  cases i with
  | frmFeed | frmFeedBatch | frmReset => cases h
  | crc16 | crc16Byte | canClassify | extClassify => exact answersWf_of_succeed (fun _ => rfl) trivial
  | frmEncode => exact answersWf_of_finish (fun _ => rfl) (encodeFrame_okWf _)
  | qEncode => exact answersWf_of_finish (fun _ => rfl) (quantEncode_okWf _ _ _ _)
  | qDecode => exact answersWf_of_finish (fun _ => rfl) (quantDecode_okWf _ _ _ _)
  | canBuildStd | canBuildExt => exact answersWf_of_finish (fun _ => rfl) (canBuild_okWf _ _ _ _)
  | canParse => exact answersWf_of_finish (fun _ => rfl) (canParse_okWf _)
  | idMakeStd => exact answersWf_of_finish (fun _ => rfl) (idMakeStd_okWf _ _)
  | idMakeExt => exact answersWf_of_succeed (fun _ => rfl) (extId_lt _ _ _)
  | idParseExt => exact answersWf_of_succeed (fun _ => rfl) (extCommandType_lt _)
  | stdEnable | stdStop | stdSetZero | stdFault | stdSetMode | stdSetMotorAddr | stdSetProtocol
  | stdSetMasterAddr | stdPosition | stdSpeed => exact answersWf_of_succeed (fun _ => rfl) rfl
  | stdFbDecode => exact answersWf_of_finish (fun _ => rfl) (stdFeedback_okWf _)
  | extGetDeviceId | extEnable | extStop | extSetZero | extSetAddr | extParamRead | extFaultReq
  | extSetBaud | extSetActiveReport | extSetProtocol | extReadVersion =>
    exact answersWf_of_extBuild (fun _ => rfl) (by simp [constants])
  | extSaveParams => exact answersWf_of_succeed (fun _ => rfl) (extBuild_wf _ _ _ rfl)
  | extParamWrite => exact answersWf_of_finish (fun _ => rfl) (paramWrite_okWf _ _ _ _)
  | extDecDeviceId => exact answersWf_of_finish (fun _ => rfl) (decDeviceId_okWf _ _)
  | extDecFeedback => exact answersWf_of_finish (fun _ => rfl) (decFeedback_okWf _ _)
  | extDecParamRead => exact answersWf_of_finish (fun _ => rfl) (decParamRead_okWf _ _)
  | extDecFault => exact answersWf_of_finish (fun _ => rfl) (decFault_okWf _)
  | faultMatch => exact answersWf_of_succeed (fun _ => rfl) (faultMatch_wf _)

/-! The step. -/

theorem answering_inv {s : State} {r : Result} (h : s.fs.Inv) (hr : r.Wf) : (s.answering r).Inv :=
  ⟨h, fun _ he => Answer.ok.inj (Option.some.inj he) ▸ hr⟩

theorem failing_inv {s : State} (e : Error) (h : s.fs.Inv) : (s.failing e).Inv :=
  ⟨h, fun _ he => nomatch he⟩

theorem succeed_inv {r : Result} {s t : State} (ht : succeed r s = .next t) (h : s.fs.Inv)
    (hr : r.Wf) : t.Inv :=
  succeed_eq_next.1 ht ▸ answering_inv h hr

theorem finish_inv {x : Except Error Result} {s t : State} (ht : finish x s = .next t)
    (h : s.fs.Inv) (hx : OkWf x) : t.Inv := by
  obtain ⟨r, hr, rfl⟩ | ⟨e, -, rfl⟩ := finish_eq_next.1 ht
  · exact answering_inv h (hx r hr)
  · exact failing_inv e h

/-- From rule R28's table alone, whatever the last answer was: an operation replaces the answer. -/
theorem exec_inv {i : Instr} {s t : State} (ht : exec i s = .next t) (h : s.fs.Inv) : t.Inv := by
  cases hu : i.usesFs with
  | false =>
    obtain ⟨x, hexec, hx⟩ := pure_answersWf i hu
    exact finish_inv (hexec s ▸ ht) h hx
  | true =>
    cases i with
    | frmFeed b => exact succeed_inv ht (feedByte_inv b h) (feedByte_event_wf b h)
    | frmFeedBatch bs => exact succeed_inv ht (feedBytes_inv bs h) (feedBytes_events_wf bs h)
    | frmReset => exact succeed_inv ht (resetFs_inv s) trivial
    | _ => cases hu

theorem step_inv {s t : State} (ht : step s = .next t) (h : s.Inv) : t.Inv := by
  unfold step at ht
  split at ht
  · cases ht
    exact h
  · split at ht
    · exact exec_inv ht h.1
    · exact raise_eq_next.1 ht ▸ failing_inv .illegalOp h.1
    · cases ht

/-- Settles O8: only the synchronizer's operations write `FS`, byte by byte, and every answer has its
ports' sizes. -/
theorem stepKeepsTheInvariant : Obligations.StepKeepsTheInvariant := by
  intro s t h ht
  exact step_inv ht h

end Sys2Proof.Machine

/-! Rules R49 and R268: what an operation can read. A pure operation only puts an answer that its operands
fix; the synchronizer's operations read and write `FS`, so they carry the last answer along unread until
their own replaces it. -/

namespace Sys2Proof.Machine

/-- The state with another last answer, all else as it was. -/
def State.withAnswer (s : State) (x : Option Answer) : State :=
  { s with answer := x }

@[simp] theorem withAnswer_fs (s : State) (x : Option Answer) : (s.withAnswer x).fs = s.fs := rfl

theorem resetFs_withAnswer (s : State) (x : Option Answer) :
    resetFs (s.withAnswer x) = (resetFs s).withAnswer x := rfl

/-! An operation's end replaces the last answer. -/

theorem succeed_withAnswer (r : Result) (s : State) (x : Option Answer) :
    succeed r (s.withAnswer x) = succeed r s := rfl

theorem finish_eq_next_withAnswer (x : Except Error Result) :
    ∃ a, ∀ s, finish x s = .next (s.withAnswer (some a)) := by
  cases x with
  | ok r => exact ⟨.ok r, finish_ok r⟩
  | error e => exact ⟨.error e, finish_error e⟩

/-- A pure operation puts one answer, the same from every state, and writes nothing else (rule R49). -/
theorem pure_exec_eq_next_withAnswer {i : Instr} (h : i.usesFs = false) :
    ∃ a, ∀ s, exec i s = .next (s.withAnswer (some a)) := by
  obtain ⟨x, hexec, -⟩ := pure_answersWf i h
  obtain ⟨a, ha⟩ := finish_eq_next_withAnswer x
  exact ⟨a, fun s => (hexec s).trans (ha s)⟩

/-! A byte carries the last answer along, phase by phase, and its event does not depend on it. -/

/-- The feed `f` neither reads nor writes the last answer. -/
def CarriesAnswer {E : Type} (f : State → State × E) (s : State) : Prop :=
  ∀ x, f (s.withAnswer x) = ((f s).1.withAnswer x, (f s).2)

theorem feedWaitSync1_carriesAnswer (b : Byte) (s : State) : CarriesAnswer (feedWaitSync1 b) s := by
  intro x
  unfold feedWaitSync1
  split_ifs <;> rfl

theorem feedWaitSync2_carriesAnswer (b : Byte) (s : State) : CarriesAnswer (feedWaitSync2 b) s := by
  intro x
  unfold feedWaitSync2
  split_ifs <;> rfl

theorem feedReadHeader_carriesAnswer (b : Byte) (s : State) : CarriesAnswer (feedReadHeader b) s := by
  intro x
  unfold feedReadHeader
  dsimp only [withAnswer_fs]
  split_ifs <;> rfl

theorem feedReadPayload_carriesAnswer (b : Byte) (s : State) : CarriesAnswer (feedReadPayload b) s := by
  intro x
  unfold feedReadPayload
  dsimp only [withAnswer_fs]
  split_ifs <;> rfl

theorem feedByte_carriesAnswer (b : Byte) (s : State) : CarriesAnswer (feedByte b) s := by
  intro x
  cases hp : s.fs.phase with
  | waitSync1 =>
    rw [feedByte_waitSync1 b hp, feedByte_waitSync1 (s := s.withAnswer x) b hp]
    exact feedWaitSync1_carriesAnswer b s x
  | waitSync2 =>
    rw [feedByte_waitSync2 b hp, feedByte_waitSync2 (s := s.withAnswer x) b hp]
    exact feedWaitSync2_carriesAnswer b s x
  | readHeader =>
    rw [feedByte_readHeader b hp, feedByte_readHeader (s := s.withAnswer x) b hp]
    exact feedReadHeader_carriesAnswer b s x
  | readPayload =>
    rw [feedByte_readPayload b hp, feedByte_readPayload (s := s.withAnswer x) b hp]
    exact feedReadPayload_carriesAnswer b s x

theorem feedBytes_carriesAnswer (bs : List Byte) (s : State) : CarriesAnswer (feedBytes bs) s := by
  intro x
  induction bs generalizing s with
  | nil => rfl
  | cons b bs ih => simp only [feedBytes, feedByte_carriesAnswer b s x, ih]

/-- An operation that carries the last answer along and then puts its own does not depend on the last. -/
theorem succeed_eq_of_carriesAnswer {E : Type} {f : State → State × E} {s : State}
    (h : CarriesAnswer f s) (port : E → Result) (x : Option Answer) :
    succeed (port (f (s.withAnswer x)).2) (f (s.withAnswer x)).1 = succeed (port (f s).2) (f s).1 := by
  rw [h x]
  exact succeed_withAnswer _ _ x

/-- No operation reads the last answer (rule R268). -/
theorem exec_withAnswer (i : Instr) (s : State) (x : Option Answer) :
    exec i (s.withAnswer x) = exec i s := by
  cases hu : i.usesFs with
  | false =>
    obtain ⟨a, ha⟩ := pure_exec_eq_next_withAnswer hu
    exact (ha _).trans (ha s).symm
  | true =>
    cases i with
    | frmFeed b => exact succeed_eq_of_carriesAnswer (feedByte_carriesAnswer b s) .event x
    | frmFeedBatch bs => exact succeed_eq_of_carriesAnswer (feedBytes_carriesAnswer bs s) .events x
    | frmReset =>
      calc exec .frmReset (s.withAnswer x)
          = succeed .empty ((resetFs s).withAnswer x) := congrArg (succeed .empty) (resetFs_withAnswer s x)
        _ = exec .frmReset s := succeed_withAnswer .empty (resetFs s) x
    | _ => cases hu

/-- Settles O16: a pure operation ends by putting one answer, and the synchronizer's operations overwrite
the last answer without having read it. -/
theorem pureOperationsDependOnTheirOperandsAlone :
    Obligations.PureOperationsDependOnTheirOperandsAlone :=
  ⟨fun _ h => pure_exec_eq_next_withAnswer h, exec_withAnswer⟩

end Sys2Proof.Machine

/-! Rules R62 and R242: a code with no row in the opcode table is turned away before its operands are read. -/

namespace Sys2Proof.Machine

/-- The assigned codes, from the rows of rule R61's table. -/
theorem opcodeTable_codes : opcodeTable.map (fun row => row.code.toNat) =
    [0x01, 0x02, 0x10, 0x11, 0x12, 0x13, 0x20, 0x21,
      0x30, 0x31, 0x32, 0x33, 0x34, 0x35, 0x36,
      0x40, 0x41, 0x42, 0x43, 0x44, 0x45, 0x46, 0x47, 0x48, 0x49, 0x4A,
      0x50, 0x51, 0x52, 0x53, 0x54, 0x55, 0x56, 0x57, 0x58, 0x59, 0x5A, 0x5B, 0x5C,
      0x60, 0x61, 0x62, 0x63, 0x64, 0x65] := rfl

theorem opRow_eq_none_iff {op : Byte} :
    opRow op = none ↔ op.toNat ∉ opcodeTable.map fun row => row.code.toNat := by
  simp only [opRow, List.find?_eq_none, List.mem_map, not_exists, not_and, beq_iff_eq,
    BitVec.toNat_inj]

theorem decode_eq_unassignedOp {r : Request} (h : opRow r.op = none) :
    decode r = .unassignedOp r.op := by
  simp only [decode, h]

theorem step_unassignedOp {s : State} {r : Request} {rest : List Request} {op : Byte}
    (hp : s.pending = r :: rest) (hd : decode r = .unassignedOp op) :
    step s = raise .illegalOp { s with pending := rest } := by
  simp only [step, hp, hd]

/-- Settles O2: the table has no row for the code, so the decoder stops at it, whatever the operands. -/
theorem unassignedCodeRaisesIllegalOp : Obligations.UnassignedCodeRaisesIllegalOp := by
  intro s r rest hp hop
  rw [← opcodeTable_codes] at hop
  have hd : decode r = .unassignedOp r.op := decode_eq_unassignedOp (opRow_eq_none_iff.2 hop)
  calc step s = raise .illegalOp { s with pending := rest } := step_unassignedOp hp hd
    _ = .next { s with pending := rest, answer := some (.error .illegalOp) } := rfl

end Sys2Proof.Machine

/-! Rules R100, R101 and R104: the checksum, a byte's eight shifts and the fold over the bytes. -/

namespace Sys2Proof.Machine

theorem exec_crc16Byte (crc : U16) (b : Byte) (s : State) :
    exec (.crc16Byte crc b) s = .next (s.answering (.crc (crcByte crc b))) := rfl

theorem exec_crc16 (seed : U16) (bytes : List Byte) (s : State) :
    exec (.crc16 seed bytes) s = .next (s.answering (.crc (crc16 seed bytes))) := rfl

theorem crc16_nil (seed : U16) : crc16 seed [] = seed := rfl

theorem crc16_cons (seed : U16) (b : Byte) (bytes : List Byte) :
    crc16 seed (b :: bytes) = crc16 (crcByte seed b) bytes := rfl

theorem crc16_append (seed : U16) (a b : List Byte) :
    crc16 seed (a ++ b) = crc16 (crc16 seed a) b :=
  List.foldl_append

/-- One more byte of the sequence advances the running value by that byte (rule R101). -/
theorem crc16_take_succ (seed : U16) {bytes : List Byte} {k : Nat} (h : k < bytes.length) :
    crc16 seed (bytes.take (k + 1)) = crcByte (crc16 seed (bytes.take k)) bytes[k] := by
  rw [List.take_succ_eq_append_getElem h, crc16_append, crc16_cons, crc16_nil]

/-- Settles O18: the running value after `k` bytes is the checksum of the first `k`. -/
theorem crcFoldsTheBytes : Obligations.CrcFoldsTheBytes := by
  intro s seed bytes
  refine ⟨fun k => crc16 seed (bytes.take k), crc16_nil seed, fun k h => ?_, ?_⟩
  · dsimp only
    rw [exec_crc16Byte, crc16_take_succ seed h]
  · dsimp only
    rw [exec_crc16, List.take_length]

/-- Rule R100's shift by numbers: the top bit stands for `0x8000`, and the shift doubles modulo 2^16. -/
theorem crcShift_eq (c : U16) :
    crcShift c = if 0x8000 ≤ c.toNat then BitVec.ofNat 16 (c.toNat * 2) ^^^ 0x1021
      else BitVec.ofNat 16 (c.toNat * 2) := by
  have hdouble : c <<< 1 = BitVec.ofNat 16 (c.toNat * 2) := by
    apply BitVec.eq_of_toNat_eq
    rw [BitVec.toNat_shiftLeft, BitVec.toNat_ofNat, Nat.shiftLeft_eq]
  have htop : c.msb = true ↔ 0x8000 ≤ c.toNat := by
    rw [BitVec.msb_eq_decide, decide_eq_true_eq]
  have hpoly : constants.crcPoly = 0x1021 := rfl
  simp only [crcShift, hdouble, htop, hpoly]

/-- A byte moved into the high byte is the byte times 256. -/
theorem zeroExtend_shiftLeft_eight (b : Byte) :
    b.zeroExtend 16 <<< 8 = BitVec.ofNat 16 (b.toNat * 256) := by
  apply BitVec.eq_of_toNat_eq
  rw [BitVec.toNat_shiftLeft, BitVec.toNat_ofNat, Nat.shiftLeft_eq,
    BitVec.toNat_setWidth_of_le (by decide)]

/-- Settles O17: the sequence is the model's shift iterated on the CRC that the byte has entered. -/
theorem crcByteShiftsEightTimes : Obligations.CrcByteShiftsEightTimes := by
  intro s crc b
  refine ⟨fun k => crcShift^[k] (crc ^^^ (b.zeroExtend 16 <<< 8)), ?_, fun k _ => ?_,
    exec_crc16Byte crc b s⟩
  · exact congrArg (crc ^^^ ·) (zeroExtend_shiftLeft_eight b)
  · dsimp only
    rw [Function.iterate_succ_apply', crcShift_eq]

/-- Settles O19: the fold over `b` goes on from the value that the fold over `a` ends with. -/
theorem crcOfASplitSequence : Obligations.CrcOfASplitSequence := by
  intro s seed a b
  refine ⟨crc16 seed a, crc16 (crc16 seed a) b, exec_crc16 seed a s,
    exec_crc16 (crc16 seed a) b s, ?_⟩
  rw [exec_crc16, crc16_append]

end Sys2Proof.Machine

/-! Rules R110 to R119: the frame synchronizer's operations. First the reset, then one byte in each phase
before the payload, the record, a batch and the encoder. -/

namespace Sys2Proof.Machine

theorem exec_frmFeed (b : Byte) (s : State) :
    exec (.frmFeed b) s = .next ((feedByte b s).1.answering (.event (feedByte b s).2)) := rfl

theorem exec_frmFeedBatch (bytes : List Byte) (s : State) :
    exec (.frmFeedBatch bytes) s =
      .next ((feedBytes bytes s).1.answering (.events (feedBytes bytes s).2)) := rfl

theorem exec_frmEncode (payload : List Byte) (s : State) :
    exec (.frmEncode payload) s = finish (encodeFrame payload) s := rfl

theorem exec_frmReset (s : State) : exec .frmReset s = .next ((resetFs s).answering .empty) := rfl

theorem exec_frmFeed_of_feedByte {b : Byte} {s t : State} {e : Event} (h : feedByte b s = (t, e)) :
    exec (.frmFeed b) s = .next (t.answering (.event e)) := by
  rw [exec_frmFeed, h]

theorem exec_frmFeedBatch_of_feedBytes {bytes : List Byte} {s t : State} {es : List Event}
    (h : feedBytes bytes s = (t, es)) :
    exec (.frmFeedBatch bytes) s = .next (t.answering (.events es)) := by
  rw [exec_frmFeedBatch, h]

/-- Settles O6: both states are written out with that phase and that count. -/
theorem resetAndFrmResetGiveTheInitialState : Obligations.ResetAndFrmResetGiveTheInitialState := by
  refine ⟨⟨reset_phase, reset_count⟩, fun s => ?_⟩
  exact ⟨(resetFs s).fs, (resetFs s).draws, exec_frmReset s, resetFs_phase s, resetFs_count s⟩

/-! The two sync bytes (rules R112, R113). -/

theorem setIfInBounds_eq_set {n i : Nat} (v : Vector Byte n) (b : Byte) (h : i < n) :
    v.setIfInBounds i b = v.set i b := by
  ext k hk
  simp [Vector.getElem_setIfInBounds, Vector.getElem_set]

theorem feedWaitSync1_sync {b : Byte} (hb : b = 0x5A) (s : State) : feedWaitSync1 b s =
    ({ s with fs := { s.fs.store 0 b with count := 1, phase := .waitSync2 } }, .none) :=
  if_pos hb

theorem feedWaitSync1_other {b : Byte} (hb : b ≠ 0x5A) (s : State) : feedWaitSync1 b s = (s, .none) :=
  if_neg hb

theorem feedWaitSync2_sync {b : Byte} (hb : b = 0xA5) (s : State) : feedWaitSync2 b s =
    ({ s with fs := { s.fs.store 1 b with count := 2, phase := .readHeader } }, .none) :=
  if_pos hb

theorem feedWaitSync2_other {b : Byte} (hb : b ≠ 0xA5) (s : State) :
    feedWaitSync2 b s = (resetFs s, .none) :=
  if_neg hb

theorem store_eq_set (fs : Fs) {i : Nat} (b : Byte) (h : i < constants.maxFrame) :
    fs.store i b = { fs with buf := fs.buf.set i b } := by
  rw [Fs.store, setIfInBounds_eq_set _ _ h]

/-- Settles O21: the byte is `SYNC1` and is stored at index 0, or nothing happens. -/
theorem feedInWaitSync1 : Obligations.FeedInWaitSync1 := by
  intro s b hp
  refine ⟨fun hb => ?_, fun hb => ?_⟩
  · rw [exec_frmFeed, feedByte_waitSync1 b hp, feedWaitSync1_sync hb, store_eq_set s.fs b (by decide)]
  · rw [exec_frmFeed, feedByte_waitSync1 b hp, feedWaitSync1_other hb]

/-- Settles O22: the byte is `SYNC2` and is stored at index 1, or the synchronizer resets. -/
theorem feedInWaitSync2 : Obligations.FeedInWaitSync2 := by
  intro s b hp
  refine ⟨fun hb => ?_,
    fun hb => ⟨(resetFs s).fs, (resetFs s).draws, ?_, resetFs_phase s, resetFs_count s⟩⟩
  · rw [exec_frmFeed, feedByte_waitSync2 b hp, feedWaitSync2_sync hb, store_eq_set s.fs b (by decide)]
  · rw [exec_frmFeed, feedByte_waitSync2 b hp, feedWaitSync2_other hb]
    rfl

/-! The header (rule R114). -/

theorem push_eq (fs : Fs) (b : Byte) : fs.push b =
    { fs with count := fs.count + 1, buf := fs.buf.setIfInBounds fs.count.toNat b } := rfl

/-- The length that the header's bytes 2 and 3 spell, once both are held. -/
theorem le16_push (fs : Fs) (b : Byte) (h : 4 ≤ fs.count.toNat) :
    le16 (fs.push b).bytes 2 = fs.buf[3] ++ fs.buf[2] := by
  rw [le16_bytes, push_get_of_lt fs b (by omega) (by decide), push_get_of_lt fs b (by omega) (by decide)]

theorem push_count_eq_hdrLen {fs : Fs} (b : Byte) (h : fs.count.toNat ≤ 5) :
    (fs.push b).count.toNat = constants.hdrLen ↔ fs.count.toNat = 5 := by
  rw [push_count_toNat fs b (by rw [maxFrame_eq]; omega)]
  exact Nat.succ_inj

/-- Before the sixth byte the header is only collected. -/
theorem feedReadHeader_store (b : Byte) {s : State} (h : s.fs.count.toNat < 5) :
    feedReadHeader b s = ({ s with fs := s.fs.push b }, .none) := by
  have hc := (push_count_eq_hdrLen b h.le).not.2 h.ne
  simp only [feedReadHeader, if_neg hc]

theorem feedReadHeader_accept (b : Byte) {s : State} {len : U16} (h : s.fs.count.toNat = 5)
    (hlen : le16 (s.fs.push b).bytes 2 = len) (h1 : 1 ≤ len.toNat) (h2 : len.toNat ≤ 506) :
    feedReadHeader b s =
      ({ s with fs := { s.fs.push b with len := len, phase := .readPayload } }, .none) := by
  have hc := (push_count_eq_hdrLen b h.le).2 h
  have hok : ¬(len = 0 ∨ constants.maxFrame < constants.hdrLen + len.toNat) := by
    rintro (rfl | hgt)
    · exact absurd h1 (by decide)
    · have : 512 < 6 + len.toNat := hgt
      omega
  simp only [feedReadHeader, if_pos hc, hlen, if_neg hok]

theorem feedReadHeader_reject (b : Byte) {s : State} {len : U16} (h : s.fs.count.toNat = 5)
    (hlen : le16 (s.fs.push b).bytes 2 = len) (hbad : len.toNat = 0 ∨ 507 ≤ len.toNat) :
    feedReadHeader b s = (resetFs s, .none) := by
  have hc := (push_count_eq_hdrLen b h.le).2 h
  have hno : len = 0 ∨ constants.maxFrame < constants.hdrLen + len.toNat :=
    hbad.imp (fun h0 => BitVec.eq_of_toNat_eq h0) (fun h507 => Nat.add_le_add_left h507 6)
  simp only [feedReadHeader, if_pos hc, hlen, if_pos hno]

/-- Settles O23: the header is collected up to its sixth byte, where the length spelled by its bytes 2 and 3
is accepted or rejected. -/
theorem feedInReadHeader : Obligations.FeedInReadHeader := by
  intro s b _ hp buf len
  have hlen (h5 : s.fs.count.toNat = 5) : le16 (s.fs.push b).bytes 2 = len :=
    le16_push s.fs b (by omega)
  refine ⟨fun hlt => ?_, fun h5 h1 h2 => ?_,
    fun h5 hbad => ⟨(resetFs s).fs, (resetFs s).draws, ?_, resetFs_phase s, resetFs_count s⟩⟩
  · rw [exec_frmFeed, feedByte_readHeader b hp, feedReadHeader_store b hlt]
    rfl
  · have hcount : s.fs.count + 1 = 6 := by
      rw [← BitVec.toNat_inj, BitVec.toNat_add, h5]
      rfl
    rw [exec_frmFeed, feedByte_readHeader b hp, feedReadHeader_accept b h5 (hlen h5) h1 h2, push_eq, hcount]
  · rw [exec_frmFeed, feedByte_readHeader b hp, feedReadHeader_reject b h5 (hlen h5) hbad]
    rfl

/-! The record (rule R116). -/

theorem recordGate_eq_decide (payload : List Byte) :
    recordGate payload = decide (payload[0]? = some 0x91 ∧ 76 ≤ payload.length) :=
  Bool.eq_iff_iff.2 ((recordGate_eq_true payload).trans decide_eq_true_iff.symm)

/-- Settles O26: the gate reads the first byte and the length, and the record is cut off at 76 bytes. -/
theorem recordGateAndRecord : Obligations.RecordGateAndRecord := by
  intro payload
  refine ⟨recordGate_eq_true payload, ?_⟩
  simp only [Event.record, recordGate_eq_true]
  rfl

/-! A batch (rule R117). -/

theorem feedBytes_append (as bs : List Byte) (s : State) :
    feedBytes (as ++ bs) s =
      ((feedBytes bs (feedBytes as s).1).1, (feedBytes as s).2 ++ (feedBytes bs (feedBytes as s).1).2) := by
  induction as generalizing s with
  | nil => rfl
  | cons a as ih =>
    ext1
    · rw [List.cons_append, feedBytes_cons_state, ih, feedBytes_cons_state]
    · simp only [List.cons_append, feedBytes_cons_events, feedBytes_cons_state, ih]
      split <;> rfl

/-- One byte more, after the shorter batch: its event ends the list unless it is `EV_NONE`. -/
theorem feedBytes_concat {bs : List Byte} {b : Byte} {s t u : State} {es : List Event} {e : Event}
    (hbs : feedBytes bs s = (t, es)) (hb : feedByte b t = (u, e)) :
    feedBytes (bs ++ [b]) s = (u, if e = .none then es else es ++ [e]) := by
  rw [feedBytes_append, hbs]
  ext1
  · simp only [feedBytes_cons_state, hb, feedBytes_nil]
  · simp only [feedBytes_cons_events, hb, feedBytes_nil]
    split <;> simp

/-- An operation's answer replaces the one before it. -/
theorem answering_answering (s : State) (r r' : Result) :
    (s.answering r).answering r' = s.answering r' := rfl

/-- Settles O27: the shorter batch leaves its answer behind, which the next byte's feed does not read. -/
theorem batchIsTheFeedsInOrder : Obligations.BatchIsTheFeedsInOrder := by
  refine ⟨fun s => exec_frmFeedBatch_of_feedBytes (feedBytes_nil s), fun s bytes b => ?_⟩
  rcases hbytes : feedBytes bytes s with ⟨t, es⟩
  rcases hb : feedByte b t with ⟨u, e⟩
  refine ⟨t.answering (.events es), es, u.answering (.event e), e,
    exec_frmFeedBatch_of_feedBytes hbytes, answering_answer _ _, ?_, answering_answer _ _, ?_⟩
  · calc exec (.frmFeed b) (t.answering (.events es))
        = exec (.frmFeed b) t := exec_withAnswer (.frmFeed b) t (some (.ok (.events es)))
      _ = .next (u.answering (.event e)) := exec_frmFeed_of_feedByte hb
  · rw [answering_answering]
    exact exec_frmFeedBatch_of_feedBytes (feedBytes_concat hbytes hb)

/-! The encoder (rule R118). -/

/-- A 16-bit word's two bytes by division, the lower one first (rule R40). -/
theorem bytesLe_ofNat_two (n : Nat) :
    bytesLe (BitVec.ofNat 16 n) 2 = [BitVec.ofNat 8 n, BitVec.ofNat 8 (n / 256)] := by
  rw [bytesLe_two]
  congr 1
  · apply BitVec.eq_of_toNat_eq
    simp [BitVec.extractLsb'_toNat]
  · congr 1
    apply BitVec.eq_of_toNat_eq
    simp [BitVec.extractLsb'_toNat, Nat.shiftRight_eq_div_pow]
    omega

theorem bytesLe_two_toNat (c : U16) :
    bytesLe c 2 = [BitVec.ofNat 8 c.toNat, BitVec.ofNat 8 (c.toNat / 256)] := by
  rw [← bytesLe_ofNat_two, BitVec.ofNat_toNat, BitVec.setWidth_eq]

/-- The four header bytes before the checksum (rule R65). -/
def headerOf (payload : List Byte) : List Byte :=
  [0x5A, 0xA5, BitVec.ofNat 8 payload.length, BitVec.ofNat 8 (payload.length / 256)]

theorem frameOf_eq (payload : List Byte) : frameOf payload =
    headerOf payload ++ bytesLe (frameCrc (headerOf payload) payload) 2 ++ payload := by
  simp only [frameOf, bytesLe_ofNat_two]
  rfl

theorem encodeFrame_ok {payload : List Byte} (h1 : 1 ≤ payload.length) (h2 : payload.length ≤ 506) :
    encodeFrame payload = .ok (.frame (frameOf payload)) :=
  if_neg (not_or.2 ⟨by omega, h2.not_gt⟩)

theorem encodeFrame_error {payload : List Byte} (h : payload.length = 0 ∨ 507 ≤ payload.length) :
    encodeFrame payload = .error (.length payload.length) :=
  if_pos h

theorem exec_frmEncode_ok (s : State) {payload : List Byte} (h1 : 1 ≤ payload.length)
    (h2 : payload.length ≤ 506) :
    exec (.frmEncode payload) s = .next (s.answering (.frame (frameOf payload))) := by
  rw [exec_frmEncode, encodeFrame_ok h1 h2, finish_ok]

/-- Settles O28: the frame is the header, its checksum and the payload, or the length is refused. -/
theorem encodeBuildsTheFrame : Obligations.EncodeBuildsTheFrame := by
  intro s payload h
  refine ⟨fun h1 h2 => ⟨frameCrc h payload, exec_crc16 0 (h ++ payload) s, ?_⟩, fun hbad => ?_⟩
  · rw [exec_frmEncode_ok s h1 h2, frameOf_eq, bytesLe_two_toNat]
    rfl
  · rw [exec_frmEncode, encodeFrame_error hbad, finish_error]

end Sys2Proof.Machine

/-! Rule R120: a whole frame. While it arrives, `FS.buf` holds its bytes so far, and its last byte is judged
on what is held. -/

namespace Sys2Proof.Machine

/-- The synchronizer is in phase `p`, and the bytes of the current frame are `held` (rules R24, R25, R27). -/
structure Fs.Holds (fs : Fs) (p : Phase) (held : List Byte) : Prop where
  phase : fs.phase = p
  count : fs.count.toNat = held.length
  bytes : fs.bytes.take held.length = held

namespace Fs.Holds

variable {fs : Fs} {p : Phase} {held : List Byte}

/-- A pushed byte is held after those before it. -/
theorem push (h : fs.Holds p held) (b : Byte) (hl : held.length < constants.maxFrame) :
    (fs.push b).Holds p (held ++ [b]) where
  phase := h.phase
  count := by rw [push_count_toNat fs b (h.count ▸ hl), h.count, List.length_append]; rfl
  bytes := by
    have htake := push_take fs b (h.count ▸ hl)
    rw [h.count, h.bytes] at htake
    rwa [List.length_append]

theorem slice_eq (h : fs.Holds p held) {i j : Nat} (hj : j ≤ held.length) :
    slice fs.bytes i j = slice held i j := by
  have htake : fs.bytes.take j = held.take j := by
    calc fs.bytes.take j
        = (fs.bytes.take held.length).take j := by rw [List.take_take, Nat.min_eq_left hj]
      _ = held.take j := by rw [h.bytes]
  rw [slice, slice, htake]

theorem byteAt_eq (h : fs.Holds p held) {i : Nat} (hi : i < held.length) :
    byteAt fs.bytes i = byteAt held i := by
  rw [byteAt, byteAt, List.getD_eq_getElem?_getD, List.getD_eq_getElem?_getD, ← List.getElem?_take_of_lt hi,
    h.bytes]

theorem le16_eq (h : fs.Holds p held) {i : Nat} (hi : i + 1 < held.length) :
    le16 fs.bytes i = le16 held i := by
  rw [le16, le16, h.byteAt_eq hi, h.byteAt_eq (Nat.lt_of_succ_lt hi)]

end Fs.Holds

/-! The header of a frame, byte by byte. -/

theorem holds_nil (fs : Fs) : { fs with count := 0 }.Holds fs.phase [] :=
  ⟨rfl, rfl, rfl⟩

theorem store_count_bytes (fs : Fs) (b : Byte) : (fs.store fs.count.toNat b).bytes = (fs.push b).bytes := rfl

theorem feedByte_sync1 {s : State} (hp : s.fs.phase = .waitSync1) :
    ∃ t, feedByte 0x5A s = (t, .none) ∧ t.fs.Holds .waitSync2 [0x5A] := by
  refine ⟨_, (feedByte_waitSync1 _ hp).trans (feedWaitSync1_sync rfl s), rfl, rfl, ?_⟩
  exact ((holds_nil s.fs).push 0x5A (by decide)).bytes

theorem feedByte_sync2 {s : State} (h : s.fs.Holds .waitSync2 [0x5A]) :
    ∃ t, feedByte 0xA5 s = (t, .none) ∧ t.fs.Holds .readHeader [0x5A, 0xA5] := by
  refine ⟨_, (feedByte_waitSync2 _ h.phase).trans (feedWaitSync2_sync rfl s), rfl, rfl, ?_⟩
  have hbytes : (s.fs.store 1 0xA5).bytes = (s.fs.push 0xA5).bytes := by
    rw [← store_count_bytes, h.count]
    rfl
  exact hbytes ▸ (h.push 0xA5 (by decide)).bytes

theorem feedByte_header {s : State} {held : List Byte} (h : s.fs.Holds .readHeader held)
    (hl : held.length < 5) (b : Byte) :
    ∃ t, feedByte b s = (t, .none) ∧ t.fs.Holds .readHeader (held ++ [b]) :=
  ⟨_, (feedByte_readHeader b h.phase).trans (feedReadHeader_store b (h.count.trans_lt hl)),
    h.push b (hl.trans (by decide))⟩

/-- The sixth header byte, after a length within rule R114's limits. -/
theorem feedByte_headerEnd {s : State} {held : List Byte} (h : s.fs.Holds .readHeader held)
    (hl : held.length = 5) (h1 : 1 ≤ (le16 held 2).toNat) (h2 : (le16 held 2).toNat ≤ 506) (b : Byte) :
    ∃ t, feedByte b s = (t, .none) ∧ t.fs.Holds .readPayload (held ++ [b]) ∧
      t.fs.len = le16 held 2 := by
  have hc : s.fs.count.toNat = 5 := h.count.trans hl
  have hlen : le16 (s.fs.push b).bytes 2 = le16 held 2 := by
    rw [le16_push s.fs b (by omega), ← le16_bytes, h.le16_eq (by omega)]
  have hpush := h.push b (by rw [hl]; decide)
  exact ⟨_, (feedByte_readHeader b h.phase).trans (feedReadHeader_accept b hc hlen h1 h2),
    ⟨rfl, hpush.count, hpush.bytes⟩, rfl⟩

theorem feedBytes_cons_none {b : Byte} {s t : State} (h : feedByte b s = (t, .none)) (bs : List Byte) :
    feedBytes (b :: bs) s = feedBytes bs t := by
  simp only [feedBytes, h, if_pos]

/-- A header whose length is within the limits is taken in without an event. -/
theorem feedBytes_header {s : State} (hp : s.fs.phase = .waitSync1) {l0 l1 : Byte}
    (h1 : 1 ≤ (l1 ++ l0).toNat) (h2 : (l1 ++ l0).toNat ≤ 506) (c0 c1 : Byte) :
    ∃ t, feedBytes [0x5A, 0xA5, l0, l1, c0, c1] s = (t, []) ∧
      t.fs.Holds .readPayload [0x5A, 0xA5, l0, l1, c0, c1] ∧ t.fs.len = l1 ++ l0 := by
  obtain ⟨s1, e1, k1⟩ := feedByte_sync1 hp
  obtain ⟨s2, e2, k2⟩ := feedByte_sync2 k1
  obtain ⟨s3, e3, k3⟩ := feedByte_header k2 (by simp) l0
  obtain ⟨s4, e4, k4⟩ := feedByte_header k3 (by simp) l1
  obtain ⟨s5, e5, k5⟩ := feedByte_header k4 (by simp) c0
  obtain ⟨s6, e6, k6, hlen⟩ := feedByte_headerEnd k5 rfl h1 h2 c1
  refine ⟨s6, ?_, k6, hlen⟩
  rw [feedBytes_cons_none e1, feedBytes_cons_none e2, feedBytes_cons_none e3, feedBytes_cons_none e4,
    feedBytes_cons_none e5, feedBytes_cons_none e6, feedBytes_nil]

/-! The payload of a frame (rule R115). -/

theorem push_count_eq_frameLen {fs : Fs} (b : Byte) (h : fs.count.toNat < constants.maxFrame) :
    (fs.push b).count.toNat = constants.hdrLen + (fs.push b).len.toNat ↔
      fs.count.toNat + 1 = 6 + fs.len.toNat := by
  rw [push_count_toNat fs b h]
  rfl

theorem feedReadPayload_store (b : Byte) {s : State} (hc : s.fs.count.toNat < constants.maxFrame)
    (h : s.fs.count.toNat + 1 < 6 + s.fs.len.toNat) :
    feedReadPayload b s = ({ s with fs := s.fs.push b }, .none) := by
  have hmore := (push_count_eq_frameLen b hc).not.2 h.ne
  simp only [feedReadPayload, if_neg hmore]

/-- The event that ends a frame, given all its bytes (rules R103, R115). -/
def frameEvent (frame : List Byte) : Event :=
  if frameCrc (frame.take 4) (frame.drop 6) = le16 frame 4 then
    .frame (frame.drop 6) (recordGate (frame.drop 6))
  else .crcError (frameCrc (frame.take 4) (frame.drop 6)) (le16 frame 4)

/-- The frame's last byte: the event is the one of the bytes held with it. -/
theorem feedReadPayload_last (b : Byte) {s : State} {held : List Byte} (h : s.fs.Holds .readPayload held)
    (hl : held.length + 1 = 6 + s.fs.len.toNat) (hmax : held.length < constants.maxFrame) :
    feedReadPayload b s = (resetFs s, frameEvent (held ++ [b])) := by
  have hend := (push_count_eq_frameLen b (h.count ▸ hmax)).2 (h.count ▸ hl)
  have hpush := h.push b hmax
  have hlength : (held ++ [b]).length = constants.hdrLen + (s.fs.push b).len.toNat := by
    rw [List.length_append]
    exact hl
  have hsix : 6 ≤ (held ++ [b]).length := hlength ▸ Nat.le_add_right 6 _
  have hheader : slice (s.fs.push b).bytes 0 4 = (held ++ [b]).take 4 := by
    rw [hpush.slice_eq (by omega)]
    rfl
  have hpayload : slice (s.fs.push b).bytes constants.hdrLen (constants.hdrLen + (s.fs.push b).len.toNat) =
      (held ++ [b]).drop 6 := by
    rw [hpush.slice_eq hlength.ge, slice, List.take_of_length_le hlength.le]
    rfl
  have hcrc : le16 (s.fs.push b).bytes 4 = le16 (held ++ [b]) 4 := hpush.le16_eq (by omega)
  simp only [feedReadPayload, if_pos hend, hheader, hpayload, hcrc, frameEvent]

/-- Payload bytes short of the frame's end are taken in without an event. -/
theorem feedBytes_payload (bs : List Byte) {s : State} {held : List Byte}
    (h : s.fs.Holds .readPayload held) (hmax : s.fs.len.toNat ≤ 506)
    (hl : held.length + bs.length < 6 + s.fs.len.toNat) :
    ∃ t, feedBytes bs s = (t, []) ∧ t.fs.Holds .readPayload (held ++ bs) ∧ t.fs.len = s.fs.len := by
  induction bs generalizing s held with
  | nil => exact ⟨s, feedBytes_nil s, by rwa [List.append_nil], rfl⟩
  | cons b bs ih =>
    rw [List.length_cons] at hl
    have hroom : held.length < constants.maxFrame := by rw [maxFrame_eq]; omega
    have hstore : feedByte b s = ({ s with fs := s.fs.push b }, .none) :=
      (feedByte_readPayload b h.phase).trans
        (feedReadPayload_store b (h.count ▸ hroom) (by rw [h.count]; omega))
    obtain ⟨t, ht, hheld, hlen⟩ := ih (s := { s with fs := s.fs.push b }) (h.push b hroom) hmax
      (by rw [List.length_append, push_len, List.length_singleton]; omega)
    refine ⟨t, (feedBytes_cons_none hstore bs).trans ht, ?_, hlen⟩
    rwa [List.append_assoc] at hheld

/-- A frame of the declared length, from `WAIT_SYNC1`: nothing before its last byte `b`, which gives the
frame's event and resets. -/
theorem feedBytes_frame {s : State} (hp : s.fs.phase = .waitSync1) {l0 l1 : Byte} (c0 c1 : Byte)
    {init : List Byte} (hl : (l1 ++ l0).toNat = init.length + 1) (hmax : init.length + 1 ≤ 506) (b : Byte) :
    ∃ t, feedBytes ([0x5A, 0xA5, l0, l1, c0, c1] ++ init) s = (t, []) ∧
      feedByte b t = (resetFs t, frameEvent ([0x5A, 0xA5, l0, l1, c0, c1] ++ init ++ [b])) := by
  obtain ⟨u, hu, hheader, hulen⟩ := feedBytes_header hp (l0 := l0) (l1 := l1) (by omega) (by omega) c0 c1
  have hlen : u.fs.len.toNat = init.length + 1 := hulen ▸ hl
  have hlength : ([0x5A, 0xA5, l0, l1, c0, c1] ++ init).length = 6 + init.length := by
    rw [List.length_append]
    rfl
  obtain ⟨t, ht, hheld, htlen⟩ := feedBytes_payload init hheader (by omega)
    (by rw [← List.length_append]; omega)
  refine ⟨t, by rw [feedBytes_append, hu, ht, List.nil_append], ?_⟩
  rw [feedByte_readPayload b hheld.phase]
  exact feedReadPayload_last b hheld (by rw [htlen]; omega) (by rw [maxFrame_eq]; omega)

/-! An encoded frame (rules R118, R120). -/

/-- Two bytes, the upper one first, are the word they were divided out of. -/
theorem append_ofNat_div (n : Nat) :
    BitVec.ofNat 8 (n / 256) ++ BitVec.ofNat 8 n = BitVec.ofNat 16 n := by
  apply BitVec.eq_of_toNat_eq
  rw [BitVec.toNat_append, ← Nat.shiftLeft_add_eq_or_of_lt (BitVec.isLt _)]
  simp only [BitVec.toNat_ofNat, Nat.shiftLeft_eq]
  omega

/-- What `bytes_le` lays out at offset 4, `le16` reads back (rule R40). -/
theorem le16_four_bytesLe (a b c d : Byte) (w : U16) (rest : List Byte) :
    le16 ([a, b, c, d] ++ bytesLe w 2 ++ rest) 4 = w := by
  have hjoin : BitVec.ofNat 8 (w.toNat / 256) ++ BitVec.ofNat 8 w.toNat = w := by
    rw [append_ofNat_div, BitVec.ofNat_toNat, BitVec.setWidth_eq]
  rw [bytesLe_two_toNat]
  exact hjoin

/-- The event of an encoded frame delivers its payload: the checksum sent is the one computed again. -/
theorem frameEvent_frameOf (payload : List Byte) :
    frameEvent (frameOf payload) = .frame payload (recordGate payload) := by
  have hheader : (frameOf payload).take 4 = headerOf payload := by rw [frameOf_eq]; rfl
  have hpayload : (frameOf payload).drop 6 = payload := by rw [frameOf_eq]; rfl
  have hcrc : le16 (frameOf payload) 4 = frameCrc (headerOf payload) payload := by
    rw [frameOf_eq]
    exact le16_four_bytesLe _ _ _ _ _ payload
  rw [frameEvent, hheader, hpayload, hcrc, if_pos rfl]

/-- The six header bytes and the payload (rule R65). -/
theorem frameOf_eq_header_append (payload : List Byte) : ∃ c0 c1, frameOf payload =
    [0x5A, 0xA5, BitVec.ofNat 8 payload.length, BitVec.ofNat 8 (payload.length / 256), c0, c1] ++ payload :=
  ⟨_, _, frameOf_eq payload⟩

/-- The length an encoded frame's header declares is its payload's. -/
theorem headerLen_toNat {n : Nat} (h : n ≤ 506) :
    (BitVec.ofNat 8 (n / 256) ++ BitVec.ofNat 8 n).toNat = n := by
  rw [append_ofNat_div, BitVec.toNat_ofNat]
  exact Nat.mod_eq_of_lt (by omega)

/-- An encoded frame from `WAIT_SYNC1`: nothing before its last byte, which delivers the payload and
resets. -/
theorem feedBytes_frameOf {s : State} (hp : s.fs.phase = .waitSync1) {payload : List Byte}
    (h1 : 1 ≤ payload.length) (h2 : payload.length ≤ 506) :
    ∃ t, feedBytes (frameOf payload).dropLast s = (t, []) ∧
      feedBytes (frameOf payload) s = (resetFs t, [.frame payload (recordGate payload)]) := by
  obtain ⟨init, b, hpayload⟩ : ∃ init b, payload = init ++ [b] :=
    payload.eq_nil_or_concat'.resolve_left (List.length_pos_iff.1 h1)
  have hlength : payload.length = init.length + 1 := by rw [hpayload, List.length_append]; rfl
  obtain ⟨c0, c1, hframe⟩ := frameOf_eq_header_append payload
  rw [hpayload, ← List.append_assoc, ← hpayload] at hframe
  obtain ⟨t, ht, hb⟩ :=
    feedBytes_frame hp c0 c1 ((headerLen_toNat h2).trans hlength) (hlength ▸ h2) b
  rw [← hframe, frameEvent_frameOf] at hb
  refine ⟨t, by rwa [hframe, List.dropLast_concat], ?_⟩
  rw [hframe, feedBytes_concat ht hb]
  rfl

/-- Settles O29: the frame's bytes but the last fill `FS.buf`, and the last finds the checksum right. -/
theorem encodedFrameIsDelivered : Obligations.EncodedFrameIsDelivered := by
  intro s payload hp h1 h2
  obtain ⟨t, hinit, hframe⟩ := feedBytes_frameOf hp h1 h2
  have hpending : t.pending = s.pending := by rw [← feedBytes_pending (frameOf payload).dropLast s, hinit]
  refine ⟨frameOf payload, (resetFs t).fs, (resetFs t).draws, t.answering (.events []),
    exec_frmEncode_ok s h1 h2, exec_frmFeedBatch_of_feedBytes hinit, answering_answer _ _, ?_,
    resetFs_phase t, resetFs_count t⟩
  rw [exec_frmFeedBatch_of_feedBytes hframe, ← recordGate_eq_decide, ← hpending]
  rfl

end Sys2Proof.Machine

/-! The quantizer (43_quantizer.md). First the arithmetic: one operation is one rounding of the exact result,
with a bound on its error. Then the checks of rule R145, the endpoints of rule R146, and the errors of rules
R143 and R144 counted in roundings, which give rule R148. -/

namespace Sys2Proof.Machine

/-! The error of one rounding. -/

/-- The rounded quotient lies within a half of the quotient, in whole numbers. -/
theorem roundHalfEven_bounds (n : Nat) {d : Nat} (hd : 0 < d) :
    2 * n ≤ (2 * roundHalfEven n d + 1) * d ∧ 2 * roundHalfEven n d * d ≤ 2 * n + d := by
  have hn : d * (n / d) + n % d = n := Nat.div_add_mod n d
  have hr : n % d < d := Nat.mod_lt n hd
  have hq : n / d % 2 = 0 ∨ n / d % 2 = 1 := by omega
  unfold roundHalfEven
  simp only
  generalize n / d = q at *
  generalize n % d = r at *
  split
  · constructor <;> nlinarith
  · split
    · constructor <;> nlinarith
    · rcases hq with h | h <;> rw [h] <;> constructor <;> nlinarith

theorem roundHalfEven_error (n : Nat) {d : Nat} (hd : 0 < d) :
    |(roundHalfEven n d : ℚ) - n / d| ≤ 1 / 2 := by
  obtain ⟨hlow, hhigh⟩ := roundHalfEven_bounds n hd
  have hd' : (0 : ℚ) < d := by exact_mod_cast hd
  have hlow' : 2 * (n : ℚ) ≤ (2 * roundHalfEven n d + 1) * d := by exact_mod_cast hlow
  have hhigh' : 2 * (roundHalfEven n d : ℚ) * d ≤ 2 * n + d := by exact_mod_cast hhigh
  have hn : (n : ℚ) = n / d * d := by field_simp
  rw [abs_le]
  constructor <;> nlinarith

/-- The excess leaves 24 bits of the quotient at most. -/
theorem lt_two_pow_excess (n : Nat) {d : Nat} (hd : 0 < d) :
    n < 2 ^ 24 * (d * 2 ^ binary32.excess n d) := by
  have hlog : n / d < 2 ^ (Nat.log2 (n / d) + 1) := Nat.lt_log2_self
  have hexp : Nat.log2 (n / d) + 1 ≤ 24 + binary32.excess n d := by
    simp only [Format.excess, binary32_frac]; omega
  have h : n / d < 2 ^ (24 + binary32.excess n d) := hlog.trans_le (Nat.pow_le_pow_right two_pos hexp)
  rw [Nat.div_lt_iff_lt_mul hd, pow_add] at h
  linarith

/-- An excess above 0 leaves 24 bits of the quotient at least. -/
theorem two_pow_excess_le {n d : Nat} (hd : 0 < d) (h : binary32.excess n d ≠ 0) :
    2 ^ 23 * (d * 2 ^ binary32.excess n d) ≤ n := by
  have hexp : 23 + binary32.excess n d = Nat.log2 (n / d) := by
    simp only [Format.excess, binary32_frac] at h ⊢; omega
  have hne : n / d ≠ 0 := fun h0 => by simp [h0] at hexp
  have hlog : 2 ^ (23 + binary32.excess n d) ≤ n / d := hexp ▸ Nat.log2_self_le hne
  rw [Nat.le_div_iff_mul_le hd, pow_add] at hlog
  linarith

/-- A rounded significand has 24 bits, or is the carry `2^24`. -/
theorem roundHalfEven_excess_le (n : Nat) {d : Nat} (hd : 0 < d) :
    roundHalfEven n (d * 2 ^ binary32.excess n d) ≤ 2 ^ 24 := by
  have h : n / (d * 2 ^ binary32.excess n d) < 2 ^ 24 :=
    (Nat.div_lt_iff_lt_mul (by positivity)).mpr (lt_two_pow_excess n hd)
  rcases roundHalfEven_cases n (d * 2 ^ binary32.excess n d) with hq | hq <;> omega

theorem excess_le {n d k : Nat} (hd : 0 < d) (h : n < 2 ^ (24 + k) * d) : binary32.excess n d ≤ k := by
  by_contra! hk
  have hlow := two_pow_excess_le hd (n := n) (by omega)
  have hpow : 2 ^ (k + 1) ≤ 2 ^ binary32.excess n d := Nat.pow_le_pow_right two_pos hk
  have : 2 ^ (24 + k) * d ≤ 2 ^ 23 * (d * 2 ^ binary32.excess n d) := by
    calc 2 ^ (24 + k) * d = 2 ^ 23 * (d * 2 ^ (k + 1)) := by ring
      _ ≤ _ := by gcongr
  omega

/-- Far below the overflow, `round` gives a finite datum. -/
theorem round_eq_fin (neg : Bool) {n d : Nat} (hd : 0 < d) (h : n < 2 ^ 249 * d) :
    binary32.round neg n d =
      .fin neg (roundHalfEven n (d * 2 ^ binary32.excess n d) * 2 ^ binary32.excess n d) := by
  have hq := roundHalfEven_excess_le n hd
  have ht : binary32.excess n d ≤ 225 := excess_le hd h
  exact if_neg (by rw [binary32_infCode, binary32_frac]; omega)

/-- The error of one rounding, in units of the least positive value. -/
theorem roundHalfEven_excess_error (n : Nat) {d : Nat} (hd : 0 < d) :
    |((roundHalfEven n (d * 2 ^ binary32.excess n d) * 2 ^ binary32.excess n d : Nat) : ℚ) - n / d| ≤
      n / d / 2 ^ 24 + 1 / 2 := by
  set t := binary32.excess n d
  have hd' : (0 : ℚ) < d := by exact_mod_cast hd
  have herr := roundHalfEven_error n (d := d * 2 ^ t) (by positivity)
  have hunit : (2 : ℚ) ^ t ≤ n / d / 2 ^ 23 + 1 := by
    by_cases h0 : t = 0
    · rw [h0]; simp only [pow_zero, le_add_iff_nonneg_left]; positivity
    · have hlow : (2 : ℚ) ^ 23 * (d * 2 ^ t) ≤ n := by exact_mod_cast two_pow_excess_le hd h0
      have : (2 : ℚ) ^ t ≤ n / d / 2 ^ 23 := by
        rw [div_div, le_div_iff₀ (by positivity)]; linarith
      linarith
  calc |((roundHalfEven n (d * 2 ^ t) * 2 ^ t : Nat) : ℚ) - n / d|
      = |(roundHalfEven n (d * 2 ^ t) : ℚ) - n / ((d * 2 ^ t : Nat) : ℚ)| * 2 ^ t := by
        have hpow : |(2 : ℚ) ^ t| = 2 ^ t := abs_of_pos (by positivity)
        rw [← hpow, ← abs_mul, sub_mul]
        push_cast
        field_simp
    _ ≤ 1 / 2 * 2 ^ t := by gcongr
    _ ≤ n / d / 2 ^ 24 + 1 / 2 := by linarith

/-! Patterns. -/

/-- A pattern put together from its three fields reads as IEEE 754 says. -/
theorem unpack32_fields (neg : Bool) {e m : Nat} (he : e < 255) (hm : m < 2 ^ 23) :
    unpack32 (BitVec.ofNat 32 (signBit neg + e * 2 ^ 23 + m)) =
      if e = 0 then .fin neg m else .fin neg ((2 ^ 23 + m) * 2 ^ (e - 1)) := by
  have hs : signBit neg = if neg then 2 ^ 31 else 0 := rfl
  have hw : (BitVec.ofNat 32 (signBit neg + e * 2 ^ 23 + m)).toNat = signBit neg + e * 2 ^ 23 + m := by
    rw [BitVec.toNat_ofNat, Nat.mod_eq_of_lt]
    split at hs <;> omega
  generalize BitVec.ofNat 32 (signBit neg + e * 2 ^ 23 + m) = w at *
  have hmsb : w.msb = neg := by
    rw [BitVec.msb_eq_decide, hw, hs]
    cases neg <;> simp <;> omega
  have hexp : (w.extractLsb' 23 8).toNat = e := by
    rw [BitVec.extractLsb'_toNat, hw, Nat.shiftRight_eq_div_pow]
    split at hs <;> omega
  have hfrac : (w.extractLsb' 0 23).toNat = m := by
    rw [BitVec.extractLsb'_toNat, hw, Nat.shiftRight_zero]
    split at hs <;> omega
  simp only [unpack32, hmsb, hexp, hfrac]
  rw [if_neg (by omega)]

/-- A significand below `2^24` at some exponent survives packing. -/
theorem unpack32_pack32_normal (nanBits : F32) (neg : Bool) {q t : Nat} (hq : q < 2 ^ 24) (ht : t ≤ 253) :
    unpack32 (pack32 nanBits (.fin neg (q * 2 ^ t))) = .fin neg (q * 2 ^ t) := by
  have hle : binary32.excess (q * 2 ^ t) 1 ≤ t := excess_le one_pos (by
    rw [pow_add, mul_one]; gcongr)
  obtain ⟨k, hk⟩ := Nat.exists_eq_add_of_le hle
  have hupper := lt_two_pow_excess (q * 2 ^ t) one_pos
  have hlower : binary32.excess (q * 2 ^ t) 1 ≠ 0 → _ := two_pow_excess_le (n := q * 2 ^ t) one_pos
  simp only [pack32]
  generalize binary32.excess (q * 2 ^ t) 1 = e at *
  have hs : q * 2 ^ t = q * 2 ^ k * 2 ^ e := by rw [hk, pow_add]; ring
  rw [hs, Nat.mul_div_cancel _ (by positivity)]
  rw [hs] at hupper hlower
  generalize q * 2 ^ k = s at *
  have hpos : 0 < 2 ^ e := by positivity
  have hs24 : s < 2 ^ 24 := by nlinarith
  by_cases hs23 : s < 2 ^ 23
  · have he : e = 0 := by
      by_contra h
      have := hlower h
      nlinarith
    subst he
    rw [unpack32_fields neg (by omega) hs23]
    simp
  · have hsum : signBit neg + e * 2 ^ 23 + s = signBit neg + (e + 1) * 2 ^ 23 + (s - 2 ^ 23) := by omega
    rw [hsum, unpack32_fields neg (by omega) (by omega), if_neg (by omega), Nat.add_sub_cancel,
      Nat.add_sub_cancel' (by omega)]

/-- So does one that a rounding carried up to `2^24`. -/
theorem unpack32_pack32_fin (nanBits : F32) (neg : Bool) {q t : Nat} (hq : q ≤ 2 ^ 24) (ht : t ≤ 252) :
    unpack32 (pack32 nanBits (.fin neg (q * 2 ^ t))) = .fin neg (q * 2 ^ t) := by
  rcases hq.lt_or_eq with hq | rfl
  · exact unpack32_pack32_normal nanBits neg hq (by omega)
  · have h : 2 ^ 24 * 2 ^ t = 2 ^ 23 * 2 ^ (t + 1) := by ring
    rw [h]
    exact unpack32_pack32_normal nanBits neg (by norm_num) (by omega)

/-! The operations on finite data. -/

/-- The data with a value are the finite ones. -/
theorem value_eq_some {x : Fp} {v : ℚ} :
    x.value binary32 = some v ↔ ∃ neg m, x = .fin neg m ∧ (signed neg m : ℚ) / 2 ^ 149 = v := by
  cases x <;> simp [Fp.value]

/-- `x` is a finite datum that a binary32 pattern holds exactly, within one rounding of the number `v`: half
a unit of the last place of 24 bits, and half the least positive value below the normal numbers. -/
def Fp.Rounds (x : Fp) (v : ℚ) : Prop :=
  ∃ r, x.value binary32 = some r ∧ (∀ nanBits, value32 (pack32 nanBits x) = some r) ∧
    |r - v| ≤ |v| / 2 ^ 24 + 1 / 2 ^ 150

theorem cast_signed (neg : Bool) (m : Nat) : (signed neg m : ℚ) = (if neg then -1 else 1) * m := by
  cases neg <;> simp

/-- `round` is one rounding of the number it is given. -/
theorem round_rounds (neg : Bool) {n d : Nat} {v : ℚ} (hd : 0 < d)
    (hv : (signed neg n : ℚ) / d / 2 ^ 149 = v) (h : |v| < 2 ^ 100) : (binary32.round neg n d).Rounds v := by
  have hd' : (0 : ℚ) < d := by exact_mod_cast hd
  have hsgn : |(if neg then -1 else 1 : ℚ)| = 1 := by cases neg <;> simp
  have hsize : (n : ℚ) / d / 2 ^ 149 = |v| := by
    rw [← hv, cast_signed, mul_div_assoc, mul_div_assoc, abs_mul, hsgn, one_mul, abs_of_nonneg (by positivity)]
  have hn : n < 2 ^ 249 * d := by
    rw [← hsize, div_lt_iff₀ (by positivity), div_lt_iff₀ hd'] at h
    exact_mod_cast (by linarith : (n : ℚ) < 2 ^ 249 * d)
  have herr := roundHalfEven_excess_error n hd
  have hq := roundHalfEven_excess_le n hd
  have ht : binary32.excess n d ≤ 225 := excess_le hd hn
  rw [round_eq_fin neg hd hn]
  refine ⟨_, value_fin _ _ _, fun nanBits => ?_, ?_⟩
  · rw [value32, unpack32_pack32_fin nanBits neg hq (by omega), value_fin]
  · generalize roundHalfEven n (d * 2 ^ binary32.excess n d) * 2 ^ binary32.excess n d = m at *
    have hdiff : (signed neg m : ℚ) / 2 ^ 149 - v = (if neg then -1 else 1) * ((m - n / d) / 2 ^ 149) := by
      rw [← hv, cast_signed, cast_signed]; ring
    rw [binary32_unit, hdiff, abs_mul, hsgn, one_mul, abs_div, abs_of_pos (by positivity : (0 : ℚ) < 2 ^ 149),
      ← hsize, div_le_iff₀ (by positivity)]
    linarith

theorem signed_add (s : Bool) (m n : Nat) : signed s (m + n) = signed s m + signed s n := by
  cases s
  · simp
  · simp; ring

theorem signed_sub {s t : Bool} (hst : s ≠ t) {m n : Nat} (h : n ≤ m) :
    signed s (m - n) = signed s m + signed t n := by
  obtain rfl : t = !s := Bool.eq_not_of_ne hst.symm
  cases s <;> simp <;> omega

theorem signed_mul (s : Bool) (m k : Nat) : signed s (m * k) = signed s m * k := by
  cases s <;> simp

theorem signed_xor_mul (s t : Bool) (m n : Nat) : signed (s ^^ t) (m * n) = signed s m * signed t n := by
  cases s <;> cases t <;> simp

theorem signed_xor_div (s t : Bool) (m n : Nat) :
    (signed (s ^^ t) m : ℚ) / n = signed s m / signed t n := by
  cases s <;> cases t <;> simp [div_neg, neg_div]

/-- Each operation on finite data is one rounding of the exact result. -/
theorem add_rounds {x y : Fp} {a b : ℚ} (hx : x.value binary32 = some a) (hy : y.value binary32 = some b)
    (h : |a + b| < 2 ^ 100) : (binary32.add x y).Rounds (a + b) := by
  obtain ⟨s, m, rfl, rfl⟩ := value_eq_some.mp hx
  obtain ⟨t, n, rfl, rfl⟩ := value_eq_some.mp hy
  rw [← add_div, ← Int.cast_add] at h ⊢
  by_cases hst : s = t
  · subst hst
    simp only [Format.add, if_true]
    exact round_rounds s one_pos (by rw [signed_add, Nat.cast_one, div_one]) h
  rcases lt_trichotomy n m with hnm | rfl | hnm
  · simp only [Format.add, if_neg hst, if_pos hnm]
    exact round_rounds s one_pos (by rw [signed_sub hst hnm.le, Nat.cast_one, div_one]) h
  · simp only [Format.add, if_neg hst, lt_irrefl, if_false]
    rw [← signed_sub hst le_rfl, Nat.sub_self, ← round_zero false 1]
    exact round_rounds false one_pos (by cases s <;> simp) (by cases s <;> simp)
  · simp only [Format.add, if_neg hst, if_neg hnm.not_gt, if_pos hnm]
    rw [add_comm (signed s m)] at h ⊢
    exact round_rounds t one_pos (by rw [signed_sub (Ne.symm hst) hnm.le, Nat.cast_one, div_one]) h

theorem value_neg {x : Fp} {a : ℚ} (hx : x.value binary32 = some a) : x.neg.value binary32 = some (-a) := by
  obtain ⟨s, m, rfl, rfl⟩ := value_eq_some.mp hx
  cases s <;> simp [Fp.neg] <;> ring

theorem sub_rounds {x y : Fp} {a b : ℚ} (hx : x.value binary32 = some a) (hy : y.value binary32 = some b)
    (h : |a - b| < 2 ^ 100) : (binary32.sub x y).Rounds (a - b) := by
  rw [sub_eq_add_neg] at h ⊢
  exact add_rounds hx (value_neg hy) h

theorem mul_rounds {x y : Fp} {a b : ℚ} (hx : x.value binary32 = some a) (hy : y.value binary32 = some b)
    (h : |a * b| < 2 ^ 100) : (binary32.mul x y).Rounds (a * b) := by
  obtain ⟨s, m, rfl, rfl⟩ := value_eq_some.mp hx
  obtain ⟨t, n, rfl, rfl⟩ := value_eq_some.mp hy
  refine round_rounds (s ^^ t) (Nat.two_pow_pos binary32.unit) ?_ h
  rw [signed_xor_mul, binary32_unit, div_mul_div_comm, div_div, Nat.cast_pow, Nat.cast_ofNat, Int.cast_mul]

theorem div_fin (s t : Bool) (m : Nat) {n : Nat} (hn : n ≠ 0) :
    binary32.div (.fin s m) (.fin t n) = binary32.round (s ^^ t) (m * 2 ^ binary32.unit) n := by
  simp only [Format.div, if_neg hn]

theorem div_rounds {x y : Fp} {a b : ℚ} (hx : x.value binary32 = some a) (hy : y.value binary32 = some b)
    (hb : b ≠ 0) (h : |a / b| < 2 ^ 100) : (binary32.div x y).Rounds (a / b) := by
  obtain ⟨s, m, rfl, rfl⟩ := value_eq_some.mp hx
  obtain ⟨t, n, rfl, rfl⟩ := value_eq_some.mp hy
  have hn : n ≠ 0 := by
    rintro rfl
    cases t <;> simp at hb
  rw [div_div_div_cancel_right₀ (by positivity)] at h ⊢
  rw [div_fin s t m hn]
  refine round_rounds (s ^^ t) (Nat.pos_of_ne_zero hn) ?_ h
  rw [signed_xor_div, signed_mul, Int.cast_mul, Int.cast_natCast, Nat.cast_pow, Nat.cast_ofNat,
    binary32_unit, div_right_comm, mul_div_cancel_right₀ _ (by positivity)]

/-- An integer of 24 bits is held exactly. -/
theorem ofInt_value {k : Nat} (hk : k < 2 ^ 24) : (binary32.ofInt k).value binary32 = some (k : ℚ) := by
  have hlt : k * 2 ^ 149 < 2 ^ (24 + 149) * 1 := by
    rw [pow_add, mul_one]; gcongr
  have hround := round_eq_fin false (n := k * 2 ^ 149) one_pos (hlt.trans_le (by gcongr <;> norm_num))
  obtain ⟨j, hj⟩ := Nat.exists_eq_add_of_le (excess_le one_pos hlt)
  have hexact : k * 2 ^ 149 = k * 2 ^ j * 2 ^ binary32.excess (k * 2 ^ 149) 1 := by
    conv_lhs => rw [hj, pow_add]
    ring
  have hsig : roundHalfEven (k * 2 ^ 149) (1 * 2 ^ binary32.excess (k * 2 ^ 149) 1) = k * 2 ^ j := by
    conv_lhs => rw [one_mul]; arg 1; rw [hexact]
    exact roundHalfEven_mul _ _ (by positivity)
  rw [hsig, ← hexact] at hround
  have hofInt : binary32.ofInt k = binary32.round false (k * 2 ^ 149) 1 := by
    simp only [Format.ofInt, binary32_unit, Int.natAbs_natCast, Int.natCast_nonneg, not_lt.mpr, decide_false]
  rw [hofInt, hround, value_fin, signed_false, binary32_unit, Int.cast_natCast, Nat.cast_mul, Nat.cast_pow,
    Nat.cast_ofNat, mul_div_cancel_right₀ _ (by positivity)]

/-- Truncation of a number closer than 1 to `u` gives `u` or, from below it, `u - 1`. -/
theorem trunc_eq_or_succ_eq {x : Fp} {v : ℚ} (hx : x.value binary32 = some v) {u : Nat} (h : |v - u| < 1) :
    ∃ z : Nat, binary32.trunc x = some (z : ℤ) ∧ (z = u ∨ z + 1 = u) := by
  obtain ⟨s, m, rfl, rfl⟩ := value_eq_some.mp hx
  obtain ⟨hlow, hhigh⟩ := abs_lt.mp h
  have hdiv := Nat.div_add_mod m (2 ^ 149)
  have hmod := Nat.mod_lt m (Nat.two_pow_pos 149)
  simp only [Format.trunc, binary32_unit]
  generalize m / 2 ^ 149 = k at *
  generalize m % 2 ^ 149 = r at *
  have hfloor : (k : ℚ) ≤ (m : ℚ) / 2 ^ 149 := by
    rw [le_div_iff₀ (by positivity)]
    exact_mod_cast (by linarith : k * 2 ^ 149 ≤ m)
  have hceil : (m : ℚ) / 2 ^ 149 < k + 1 := by
    rw [div_lt_iff₀ (by positivity)]
    exact_mod_cast (by linarith : m < (k + 1) * 2 ^ 149)
  cases s with
  | false =>
    simp only [signed_false, Int.cast_natCast] at hlow hhigh ⊢
    have h1 : k < u + 1 := by exact_mod_cast (by linarith : (k : ℚ) < u + 1)
    have h2 : u < k + 2 := by exact_mod_cast (by linarith : (u : ℚ) < k + 2)
    exact ⟨k, rfl, by omega⟩
  | true =>
    simp only [signed_true, Int.cast_neg, Int.cast_natCast, neg_div] at hlow hhigh ⊢
    have h1 : k + u < 1 := by exact_mod_cast (by linarith : (k : ℚ) + u < 1)
    exact ⟨0, by simp; omega, by omega⟩

/-! The checks and the errors of the quantizer. -/

theorem exec_qEncode (x min max : F32) (bits : Byte) (s : State) :
    exec (.qEncode x min max bits) s = finish (quantEncode x min max bits) s := rfl

theorem exec_qDecode (u : U32) (min max : F32) (bits : Byte) (s : State) :
    exec (.qDecode u min max bits) s = finish (quantDecode u min max bits) s := rfl

theorem badBits_eq_true {bits : Byte} : badBits bits = true ↔ bits.toNat < 1 ∨ 16 < bits.toNat := by
  simp [badBits, outside]

theorem isFinite_iff {x : Fp} : x.isFinite = true ↔ ∃ v, x.value binary32 = some v := by
  cases x <;> simp [Fp.isFinite, Fp.value]

/-- On finite data the comparison is that of their numbers. -/
theorem Fp.lt_eq_true {x y : Fp} {a b : ℚ} (hx : x.value binary32 = some a) (hy : y.value binary32 = some b) :
    x.lt y = true ↔ a < b := by
  obtain ⟨s, m, rfl, rfl⟩ := value_eq_some.mp hx
  obtain ⟨t, n, rfl, rfl⟩ := value_eq_some.mp hy
  rw [div_lt_div_iff_of_pos_right (by positivity), Int.cast_lt]
  exact decide_eq_true_iff

/-- `check_range` passes exactly for finite bounds in rising order (rule R145). -/
theorem badRange_eq_false {min max : F32} :
    badRange min max = false ↔ ∃ lo hi, value32 min = some lo ∧ value32 max = some hi ∧ lo < hi := by
  have hcheck : badRange min max = false ↔
      (unpack32 min).isFinite = true ∧ (unpack32 max).isFinite = true ∧
        (unpack32 min).lt (unpack32 max) = true := by
    simp [badRange, and_assoc]
  rw [hcheck, isFinite_iff, isFinite_iff]
  constructor
  · rintro ⟨⟨lo, hlo⟩, ⟨hi, hhi⟩, hlt⟩
    exact ⟨lo, hi, hlo, hhi, (Fp.lt_eq_true hlo hhi).mp hlt⟩
  · rintro ⟨lo, hi, hlo, hhi, hlt⟩
    exact ⟨⟨lo, hlo⟩, ⟨hi, hhi⟩, (Fp.lt_eq_true hlo hhi).mpr hlt⟩

theorem unpack32_isNan {x : F32} (he : x.extractLsb' 23 8 = 0xFF#8) (hm : x.extractLsb' 0 23 ≠ 0#23) :
    (unpack32 x).isNan = true := by
  have he' : (x.extractLsb' 23 8).toNat = 255 := congrArg BitVec.toNat he
  have hm' : (x.extractLsb' 0 23).toNat ≠ 0 := fun h => hm (BitVec.eq_of_toNat_eq h)
  simp only [unpack32]
  rw [if_pos he', if_neg hm', Fp.isNan]

/-- Settles O13: the checks stand in the operations in the statement's order. -/
theorem quantizerErrorsNameTheirOperands : Obligations.QuantizerErrorsNameTheirOperands := by
  intro s x min max u bits good
  rw [exec_qEncode, exec_qDecode]
  refine ⟨fun hbits => ?_, fun h1 h16 => ?_⟩
  · rw [quantEncode, quantDecode, if_pos (badBits_eq_true.mpr hbits), if_pos (badBits_eq_true.mpr hbits)]
    exact ⟨rfl, rfl⟩
  have hbits : ¬badBits bits = true := fun h => by have := badBits_eq_true.mp h; omega
  have hrange : ¬good → badRange min max = true := fun h => by
    simpa using mt badRange_eq_false.mp h
  rw [quantEncode, quantDecode, if_neg hbits, if_neg hbits]
  refine ⟨fun hu => ?_, fun hu hbad => ?_, fun hbad => ?_, fun hgood he hm => ?_⟩
  · rw [if_pos (show topCode bits < u.toNat from hu), finish_error]
  · rw [if_neg (show ¬topCode bits < u.toNat from hu.not_gt), if_pos (hrange hbad), finish_error]
  · rw [if_pos (hrange hbad), finish_error]
  · rw [badRange_eq_false.mpr hgood, if_neg Bool.false_ne_true, if_pos (unpack32_isNan he hm), finish_error]

/-- Rule R146 of the seven domains: each endpoint encodes to its code, and the code decodes to it. -/
theorem domain_endpoints : ∀ d ∈ domains,
    quantEncode d.min d.min d.max d.bits = .ok (.code 0) ∧
    quantEncode d.max d.min d.max d.bits = .ok (.code (BitVec.ofNat 32 (topCode d.bits))) ∧
    quantDecode 0 d.min d.max d.bits = .ok (.value d.min) ∧
    quantDecode (BitVec.ofNat 32 (topCode d.bits)) d.min d.max d.bits = .ok (.value d.max) := by
  decide +kernel

theorem quantEncode_three_tenths : quantEncode 0x3E99999A 0 0x3E99999A 12 = .ok (.code 4094) := by
  decide +kernel

/-- Settles O38: the seven domains and the example, evaluated. -/
theorem domainEndpointsAreExact : Obligations.DomainEndpointsAreExact := by
  refine ⟨fun s d hd => ?_, fun s => by rw [exec_qEncode, quantEncode_three_tenths, finish_ok]⟩
  obtain ⟨hmin, hmax, hzero, htop⟩ := domain_endpoints d hd
  simp only [exec_qEncode, exec_qDecode]
  exact ⟨by rw [hmin, finish_ok], by rw [hmax, finish_ok]; rfl, by rw [hzero, finish_ok],
    (congrArg (finish · s) htop).trans (finish_ok _ _)⟩

/-! Counting roundings. -/

/-- `r` is at most `k` roundings of numbers up to `M` away from `v`, itself such a number. -/
structure Within (k M r v : ℚ) : Prop where
  size : |v| ≤ M
  error : |r - v| ≤ k * (M / 2 ^ 24)

theorem Within.refl {M v : ℚ} (h : |v| ≤ M) : Within 0 M v v := ⟨h, by simp⟩

theorem Within.abs_lt {k M r v : ℚ} (h : Within k M r v) (hk : k ≤ 10) (hM : 1 ≤ M) (hM' : M ≤ 2 ^ 30) :
    |r| < 2 ^ 100 := by
  have herr : |r - v| ≤ 10 * (M / 2 ^ 24) := h.error.trans (by gcongr)
  calc |r| = |r - v + v| := by ring_nf
    _ ≤ 10 * (M / 2 ^ 24) + M := (abs_add_le _ _).trans (add_le_add herr h.size)
    _ < 2 ^ 100 := by norm_num at hM' ⊢; linarith

/-- One more operation adds one rounding; the hundredth covers what is of second order. -/
theorem Fp.Rounds.within {x : Fp} {k M r v : ℚ} (h : x.Rounds r) (hr : Within k M r v) (hk : k ≤ 10)
    (hM : 1 ≤ M) : ∃ y, x.value binary32 = some y ∧ (∀ nanBits, value32 (pack32 nanBits x) = some y) ∧
      Within (k + 101 / 100) M y v := by
  obtain ⟨y, hval, hpack, herr⟩ := h
  refine ⟨y, hval, hpack, hr.size, ?_⟩
  have hkM : k * (M / 2 ^ 24) ≤ 10 * (M / 2 ^ 24) := by gcongr
  have hr' : |r| ≤ k * (M / 2 ^ 24) + M := by
    calc |r| = |r - v + v| := by ring_nf
      _ ≤ _ := (abs_add_le _ _).trans (add_le_add hr.error hr.size)
  calc |y - v| ≤ |y - r| + |r - v| := abs_sub_le _ _ _
    _ ≤ |r| / 2 ^ 24 + 1 / 2 ^ 150 + k * (M / 2 ^ 24) := add_le_add herr hr.error
    _ ≤ (k + 101 / 100) * (M / 2 ^ 24) := by linarith

theorem Within.const_mul {k M r v c S : ℚ} (h : Within k M r v) (h0 : 0 ≤ c) (hc : c ≤ S) :
    Within k (S * M) (c * r) (c * v) where
  size := by
    rw [abs_mul, abs_of_nonneg h0]
    exact mul_le_mul hc h.size (abs_nonneg v) (h0.trans hc)
  error := by
    rw [← mul_sub, abs_mul, abs_of_nonneg h0]
    calc c * |r - v| ≤ S * (k * (M / 2 ^ 24)) :=
          mul_le_mul hc h.error (abs_nonneg _) (h0.trans hc)
      _ = k * (S * M / 2 ^ 24) := by ring

theorem Within.div_const {k M r v S : ℚ} (h : Within k (S * M) r v) (hS : 0 < S) :
    Within k M (r / S) (v / S) where
  size := by
    rw [abs_div, abs_of_pos hS, div_le_iff₀ hS, mul_comm]
    exact h.size
  error := by
    rw [← sub_div, abs_div, abs_of_pos hS, div_le_iff₀ hS]
    linarith [h.error]

theorem Within.add_const {k M r v : ℚ} (h : Within k M r v) (c : ℚ) (hc : |v + c| ≤ M) :
    Within k M (r + c) (v + c) :=
  ⟨hc, by rw [add_sub_add_right_eq_sub]; exact h.error⟩

/-- The errors of a numerator and of a denominator that should have cancelled a factor `W`. -/
theorem Within.div {k l S W m D T : ℚ} (hm : Within k (S * W) m (T * W)) (hD : Within l W D W) (hW : 0 < W)
    (hS : 0 ≤ S) (hT : |T| ≤ S) (hk : 0 ≤ k) (hl : 0 ≤ l) (hl' : l ≤ 10) :
    Within ((k + l) * (101 / 100)) S (m / D) T where
  size := hT
  error := by
    have hlow : W * (100 / 101) ≤ D := by
      have := (abs_le.mp hD.error).1
      have : l * (W / 2 ^ 24) ≤ 10 * (W / 2 ^ 24) := by gcongr
      linarith
    have hDpos : 0 < D := by linarith
    have hnum : |m - T * D| ≤ (k + l) * (S / 2 ^ 24) * W := by
      calc |m - T * D| ≤ |m - T * W| + |T * W - T * D| := abs_sub_le _ _ _
        _ = |m - T * W| + |T| * |D - W| := by rw [← mul_sub, abs_mul, abs_sub_comm W D]
        _ ≤ k * (S * W / 2 ^ 24) + S * (l * (W / 2 ^ 24)) :=
          add_le_add hm.error (mul_le_mul hT hD.error (abs_nonneg _) hS)
        _ = _ := by ring
    have hdiv : m / D - T = (m - T * D) / D := by field_simp
    rw [hdiv, abs_div, abs_of_pos hDpos, div_le_iff₀ hDpos]
    calc |m - T * D| ≤ (k + l) * (S / 2 ^ 24) * W := hnum
      _ = (k + l) * (101 / 100) * (S / 2 ^ 24) * (W * (100 / 101)) := by ring
      _ ≤ _ := by gcongr

/-! The formulas over a documented domain. -/

section
variable {d : Config.Domain} {lo hi : ℚ}

/-- The bounds of a documented domain are the numbers `lo` and `hi`, zero is among the values, and the span
is neither narrow nor wide. -/
structure Bounded (d : Config.Domain) (lo hi : ℚ) : Prop where
  min_value : value32 d.min = some lo
  max_value : value32 d.max = some hi
  lo_le_zero : lo ≤ 0
  zero_le_hi : 0 ≤ hi
  one_le_span : 1 ≤ hi - lo
  span_le : hi - lo ≤ 1024
  one_le_bits : 1 ≤ d.bits.toNat
  bits_le : d.bits.toNat ≤ 16

theorem domains_bounded {d : Config.Domain} (hd : d ∈ domains) : ∃ lo hi, Bounded d lo hi := by
  simp only [domains, List.mem_cons, List.not_mem_nil, or_false] at hd
  rcases hd with rfl | rfl | rfl | rfl | rfl | rfl | rfl <;>
    exact ⟨_, _, rfl, rfl, by decide +kernel, by decide +kernel, by decide +kernel, by decide +kernel,
      by decide, by decide⟩

/-- The quantization step: the span over the largest code. -/
def stepSize (d : Config.Domain) (lo hi : ℚ) : ℚ := (hi - lo) / topCode d.bits

theorem Bounded.one_le_topCode (h : Bounded d lo hi) : 1 ≤ topCode d.bits := by
  have := Nat.pow_le_pow_right two_pos h.one_le_bits
  unfold topCode
  omega

theorem Bounded.topCode_le (h : Bounded d lo hi) : topCode d.bits ≤ 65535 := by
  have := Nat.pow_le_pow_right two_pos h.bits_le
  unfold topCode
  omega

theorem Bounded.one_le_scale (h : Bounded d lo hi) : (1 : ℚ) ≤ topCode d.bits := by
  exact_mod_cast h.one_le_topCode

theorem Bounded.scale_le (h : Bounded d lo hi) : (topCode d.bits : ℚ) ≤ 65535 := by
  exact_mod_cast h.topCode_le

theorem Bounded.one_le_scale_mul_span (h : Bounded d lo hi) : 1 ≤ (topCode d.bits : ℚ) * (hi - lo) :=
  one_le_mul_of_one_le_of_one_le h.one_le_scale h.one_le_span

theorem Bounded.scale_mul_span_le (h : Bounded d lo hi) : (topCode d.bits : ℚ) * (hi - lo) ≤ 2 ^ 30 := by
  have hone := h.one_le_span
  calc _ ≤ (65535 : ℚ) * 1024 := mul_le_mul h.scale_le h.span_le (by linarith) (by norm_num)
    _ ≤ _ := by norm_num

theorem Bounded.scale_value (h : Bounded d lo hi) :
    (binary32.ofInt (topCode d.bits)).value binary32 = some (topCode d.bits : ℚ) :=
  ofInt_value (h.topCode_le.trans_lt (by norm_num))

theorem Bounded.stepSize_pos (h : Bounded d lo hi) : 0 < stepSize d lo hi :=
  div_pos (by linarith [h.one_le_span]) (by linarith [h.one_le_scale])

theorem Bounded.span_eq (h : Bounded d lo hi) : hi - lo = topCode d.bits * stepSize d lo hi := by
  have hscale : (topCode d.bits : ℚ) ≠ 0 := by linarith [h.one_le_scale]
  rw [stepSize, mul_div_cancel₀ _ hscale]

theorem Bounded.span_within (h : Bounded d lo hi) :
    ∃ span, (binary32.sub (unpack32 d.max) (unpack32 d.min)).value binary32 = some span ∧
      Within (101 / 100) (hi - lo) span (hi - lo) := by
  have hone := h.one_le_span
  have hle := h.span_le
  have hW : Within 0 (hi - lo) (hi - lo) (hi - lo) := .refl (abs_of_nonneg (by linarith)).le
  obtain ⟨span, hval, -, hnear⟩ := (sub_rounds h.max_value h.min_value
    (hW.abs_lt (by norm_num) hone (by linarith))).within hW (by norm_num) hone
  exact ⟨span, hval, by simpa using hnear⟩

theorem dequantum_eq (u : U32) (min max : F32) (bits : Byte) : dequantum quantArith u min max bits =
    binary32.add (binary32.div (binary32.mul (binary32.ofInt u.toNat)
      (binary32.sub (unpack32 max) (unpack32 min))) (binary32.ofInt (topCode bits))) (unpack32 min) := rfl

theorem decodeIn_eq (d : Config.Domain) (u : U32) : decodeIn d u =
    pack32 (nanPattern (Config.freeNan u d.min d.max d.bits)) (dequantum quantArith u d.min d.max d.bits) := rfl

theorem quantum_eq (x min max : F32) (bits : Byte) : quantum quantArith x min max bits =
    binary32.div (binary32.mul (binary32.sub (unpack32 x) (unpack32 min)) (binary32.ofInt (topCode bits)))
      (binary32.sub (unpack32 max) (unpack32 min)) := rfl

/-- `Q_DECODE` gives the code's place on the scale to within a fiftieth of a step: four roundings of numbers
up to the span, on at most 65535 steps. -/
theorem Bounded.decode_near (h : Bounded d lo hi) {u : U32} (hu : u.toNat ≤ topCode d.bits) :
    ∃ r, value32 (decodeIn d u) = some r ∧
      |r - (lo + u.toNat * stepSize d lo hi)| ≤ stepSize d lo hi / 50 := by
  have hS1 := h.one_le_scale
  have hS2 := h.scale_le
  have huS : (u.toNat : ℚ) ≤ topCode d.bits := by exact_mod_cast hu
  have hU := ofInt_value (hu.trans_lt (h.topCode_le.trans_lt (by norm_num)))
  have hstep : u.toNat * (hi - lo) / topCode d.bits = u.toNat * stepSize d lo hi := mul_div_assoc _ _ _
  have hspan := h.span_eq
  have hone := h.one_le_span
  have hle := h.span_le
  have hpos := h.stepSize_pos
  have hSW := h.one_le_scale_mul_span
  have hSW' := h.scale_mul_span_le
  have hin : u.toNat * stepSize d lo hi ≤ hi - lo := hspan ▸ mul_le_mul_of_nonneg_right huS hpos.le
  obtain ⟨D, hDval, hD⟩ := h.span_within
  have huD := hD.const_mul (Nat.cast_nonneg u.toNat) huS
  obtain ⟨p, hpval, -, hp⟩ := (mul_rounds hU hDval
    (huD.abs_lt (by norm_num) hSW hSW')).within huD (by norm_num) hSW
  have hpS := hp.div_const (by linarith)
  obtain ⟨q, hqval, -, hq⟩ := (div_rounds hpval h.scale_value (by positivity)
    (hpS.abs_lt (by norm_num) hone (by linarith))).within hpS (by norm_num) hone
  rw [hstep] at hq
  have hqlo := hq.add_const lo (by
    have : 0 ≤ u.toNat * stepSize d lo hi := by positivity
    rw [abs_le]
    constructor <;> linarith [h.lo_le_zero, h.zero_le_hi])
  obtain ⟨r, -, hrval, hr⟩ := (add_rounds hqval h.min_value
    (hqlo.abs_lt (by norm_num) hone (by linarith))).within hqlo (by norm_num) hone
  refine ⟨r, by rw [decodeIn_eq, dequantum_eq]; exact hrval _, ?_⟩
  rw [add_comm lo]
  refine hr.error.trans ?_
  rw [hspan]
  linarith [mul_le_mul_of_nonneg_right hS2 hpos.le]

/-- The quotient of `Q_ENCODE` is the operand's place on the scale to within a fiftieth of a step. -/
theorem Bounded.quantum_near (h : Bounded d lo hi) {x : F32} {a : ℚ} (hx : value32 x = some a) (ha : lo ≤ a)
    (ha' : a ≤ hi) : ∃ g, (quantum quantArith x d.min d.max d.bits).value binary32 = some g ∧
      |g - (a - lo) / stepSize d lo hi| ≤ 1 / 50 := by
  have hS1 := h.one_le_scale
  have hS2 := h.scale_le
  have hspan := h.span_eq
  have hone := h.one_le_span
  have hle := h.span_le
  have hpos := h.stepSize_pos
  have hSW := h.one_le_scale_mul_span
  have hSW' := h.scale_mul_span_le
  have ht : Within 0 (hi - lo) (a - lo) (a - lo) :=
    .refl (by rw [abs_of_nonneg (by linarith)]; linarith)
  obtain ⟨D, hDval, hD⟩ := h.span_within
  have hDpos : D ≠ 0 := by
    have := (abs_le.mp hD.error).1
    intro h0
    rw [h0] at this
    linarith
  obtain ⟨e, heval, -, he⟩ := (sub_rounds hx h.min_value
    (ht.abs_lt (by norm_num) hone (by linarith))).within ht (by norm_num) hone
  have heS := he.const_mul (by linarith) (le_refl (topCode d.bits : ℚ))
  rw [mul_comm _ e] at heS
  obtain ⟨m, hmval, -, hm⟩ := (mul_rounds heval h.scale_value
    (heS.abs_lt (by norm_num) hSW hSW')).within heS (by norm_num) hSW
  have hT : (topCode d.bits : ℚ) * (a - lo) = (a - lo) / stepSize d lo hi * (hi - lo) := by
    rw [hspan]; field_simp
  have hTS : |(a - lo) / stepSize d lo hi| ≤ topCode d.bits := by
    rw [abs_of_nonneg (div_nonneg (by linarith) hpos.le), div_le_iff₀ hpos, ← hspan]
    linarith
  rw [hT] at hm
  have hmD := hm.div hD (by linarith) (by linarith) hTS (by norm_num) (by norm_num) (by norm_num)
  obtain ⟨g, hgval, -, hg⟩ := (div_rounds hmval hDval hDpos
    (hmD.abs_lt (by norm_num) hS1 (by linarith))).within hmD (by norm_num) hS1
  refine ⟨g, by rw [quantum_eq]; exact hgval, hg.error.trans ?_⟩
  linarith

theorem Bounded.not_badBits (h : Bounded d lo hi) : ¬badBits d.bits = true := fun hbad => by
  have := badBits_eq_true.mp hbad
  have := h.one_le_bits
  have := h.bits_le
  omega

theorem Bounded.not_badRange (h : Bounded d lo hi) : ¬badRange d.min d.max = true := by
  rw [badRange_eq_false.mpr ⟨lo, hi, h.min_value, h.max_value, by linarith [h.one_le_span]⟩]
  exact Bool.false_ne_true

theorem Bounded.quantDecode_eq (h : Bounded d lo hi) {u : U32} (hu : u.toNat ≤ topCode d.bits) :
    quantDecode u d.min d.max d.bits = .ok (.value (decodeIn d u)) := by
  rw [quantDecode, if_neg h.not_badBits, if_neg hu.not_gt, if_neg h.not_badRange, decodeIn]

/-- An operand between the bounds is not clamped (rule R142). -/
theorem clamp_eq_self {x min max : F32} {a lo hi : ℚ} (hx : value32 x = some a) (hmin : value32 min = some lo)
    (hmax : value32 max = some hi) (ha : lo ≤ a) (ha' : a ≤ hi) : clamp x min max = x := by
  rw [clamp, if_neg (mt (Fp.lt_eq_true hx hmin).mp ha.not_gt), if_neg (mt (Fp.lt_eq_true hmax hx).mp ha'.not_gt)]

theorem not_isNan_of_value {x : Fp} {a : ℚ} (hx : x.value binary32 = some a) : ¬x.isNan = true := by
  obtain ⟨s, m, rfl, -⟩ := value_eq_some.mp hx
  exact Bool.false_ne_true

theorem Bounded.quantEncode_eq (h : Bounded d lo hi) {x : F32} {a : ℚ} (hx : value32 x = some a)
    (ha : lo ≤ a) (ha' : a ≤ hi) :
    quantEncode x d.min d.max d.bits = .ok (.code (encodeCode quantArith x d.min d.max d.bits)) := by
  rw [quantEncode, if_neg h.not_badBits, if_neg h.not_badRange, if_neg (not_isNan_of_value hx),
    clamp_eq_self hx h.min_value h.max_value ha ha']

/-- A quotient closer than 1 to `u` is the code `u` or `u - 1`. -/
theorem encodeCode_eq_or_succ_eq {x min max : F32} {bits : Byte} {g : ℚ} {u : Nat}
    (hg : (quantum quantArith x min max bits).value binary32 = some g) (hu : u < 2 ^ 32) (h : |g - u| < 1) :
    (encodeCode quantArith x min max bits).toNat = u ∨ (encodeCode quantArith x min max bits).toNat + 1 = u := by
  obtain ⟨z, htrunc, hz⟩ := trunc_eq_or_succ_eq hg h
  have hcode : encodeCode quantArith x min max bits = BitVec.ofInt 32 z := by
    rw [encodeCode, show (arithFormat quantArith).trunc _ = some (z : ℤ) from htrunc]
  have hnat : (BitVec.ofInt 32 (z : ℤ)).toNat = z := by
    rw [BitVec.ofInt_natCast, BitVec.toNat_ofNat, Nat.mod_eq_of_lt (by omega)]
  rwa [hcode, hnat]

/-! Decoding a code and encoding its value. -/

/-- The finite number a code decodes to. -/
def decodedValue (d : Config.Domain) (u : Nat) : ℚ := (value32 (decodeIn d (BitVec.ofNat 32 u))).getD 0

theorem Bounded.toNat_code (h : Bounded d lo hi) {u : Nat} (hu : u ≤ topCode d.bits) :
    (BitVec.ofNat 32 u).toNat = u := by
  have := h.topCode_le
  rw [BitVec.toNat_ofNat, Nat.mod_eq_of_lt (by omega)]

theorem Bounded.decodedValue_near (h : Bounded d lo hi) {u : Nat} (hu : u ≤ topCode d.bits) :
    value32 (decodeIn d (BitVec.ofNat 32 u)) = some (decodedValue d u) ∧
      |decodedValue d u - (lo + u * stepSize d lo hi)| ≤ stepSize d lo hi / 50 := by
  obtain ⟨r, hval, hr⟩ := h.decode_near (u := BitVec.ofNat 32 u) (by rwa [h.toNat_code hu])
  rw [h.toNat_code hu] at hr
  rw [decodedValue, hval]
  exact ⟨rfl, hr⟩

/-- The values of neighbouring codes are a step apart and their errors are smaller. -/
theorem Bounded.decodedValue_le_succ (h : Bounded d lo hi) {u : Nat} (hu : u + 1 ≤ topCode d.bits) :
    decodedValue d u ≤ decodedValue d (u + 1) := by
  have hpos := h.stepSize_pos
  have hlow := (abs_le.mp (h.decodedValue_near hu).2).1
  have hhigh := (abs_le.mp (h.decodedValue_near (u.le_succ.trans hu)).2).2
  push_cast at hlow
  linarith

theorem Bounded.decodedValue_mono (h : Bounded d lo hi) {u v : Nat} (huv : u ≤ v) (hv : v ≤ topCode d.bits) :
    decodedValue d u ≤ decodedValue d v := by
  induction v, huv using Nat.le_induction with
  | base => exact le_rfl
  | succ v _ ih => exact (ih (by omega)).trans (h.decodedValue_le_succ hv)

/-- A code that `Q_DECODE` takes to a pattern of the number `a` has the value `a`. -/
theorem Bounded.decodedValue_of_quantDecode (h : Bounded d lo hi) {u : Nat} (hu : u ≤ topCode d.bits)
    {y : F32} {a : ℚ} (hy : quantDecode (BitVec.ofNat 32 u) d.min d.max d.bits = .ok (.value y))
    (ha : value32 y = some a) : decodedValue d u = a := by
  rw [h.quantDecode_eq (by rwa [h.toNat_code hu])] at hy
  injection hy with hy
  injection hy with hy
  rw [decodedValue, hy, ha, Option.getD_some]

theorem Bounded.decodedValue_mem (h : Bounded d lo hi) (hd : d ∈ domains) {u : Nat} (hu : u ≤ topCode d.bits) :
    lo ≤ decodedValue d u ∧ decodedValue d u ≤ hi := by
  obtain ⟨-, -, hzero, htop⟩ := domain_endpoints d hd
  have hlo := h.decodedValue_of_quantDecode (Nat.zero_le _) hzero h.min_value
  have hhi := h.decodedValue_of_quantDecode le_rfl htop h.max_value
  exact ⟨hlo ▸ h.decodedValue_mono u.zero_le hu, hhi ▸ h.decodedValue_mono hu le_rfl⟩

/-- The decoded value lies within a fiftieth of a step of its code's place, and the quotient of its encoding
within another of the value's: together less than the one step that the truncation may lose. -/
theorem Bounded.encode_decodeIn (h : Bounded d lo hi) (hd : d ∈ domains) {u : Nat} (hu : u ≤ topCode d.bits) :
    ∃ w : U32, quantEncode (decodeIn d (BitVec.ofNat 32 u)) d.min d.max d.bits = .ok (.code w) ∧
      (w.toNat = u ∨ w.toNat + 1 = u) := by
  obtain ⟨hval, hnear⟩ := h.decodedValue_near hu
  obtain ⟨hlo, hhi⟩ := h.decodedValue_mem hd hu
  obtain ⟨g, hg, herr⟩ := h.quantum_near hval hlo hhi
  have hpos := h.stepSize_pos
  have hplace : |(decodedValue d u - lo) / stepSize d lo hi - u| ≤ 1 / 50 := by
    have hdiv : (decodedValue d u - lo) / stepSize d lo hi - u =
        (decodedValue d u - (lo + u * stepSize d lo hi)) / stepSize d lo hi := by
      field_simp; ring
    rw [hdiv, abs_div, abs_of_pos hpos, div_le_iff₀ hpos]
    linarith
  refine ⟨_, h.quantEncode_eq hval hlo hhi,
    encodeCode_eq_or_succ_eq hg (by have := h.topCode_le; omega) ?_⟩
  calc |g - u| ≤ _ := abs_sub_le _ _ _
    _ ≤ 1 / 50 + 1 / 50 := add_le_add herr hplace
    _ < 1 := by norm_num

end

/-- Rule R148's example. -/
theorem vel12_one_roundTrip :
    quantDecode 1 0xC2040000 0x42040000 12 = .ok (.value 0xC203EF7F) ∧
    quantEncode 0xC203EF7F 0xC2040000 0x42040000 12 = .ok (.code 0) := by
  decide +kernel

/-- Settles O39: the rounding errors of decoding and of encoding again stay together under one step, and under
half the distance of two codes' values; the endpoints, which are exact, bound the values between them. -/
theorem decodedCodesEncodeBack : Obligations.DecodedCodesEncodeBack := by
  refine ⟨fun s d hd => ?_, fun s => ?_⟩
  · obtain ⟨lo, hi, h⟩ := domains_bounded hd
    have htop : ∀ u, u < 2 ^ d.bits.toNat → u ≤ topCode d.bits := fun u hu => Nat.le_sub_one_of_lt hu
    refine ⟨lo, hi, fun u => decodeIn d (BitVec.ofNat 32 u), decodedValue d, h.min_value, h.max_value,
      fun u hu => ?_, fun u hu => h.decodedValue_le_succ (htop _ hu)⟩
    obtain ⟨hlo, hhi⟩ := h.decodedValue_mem hd (htop u hu)
    obtain ⟨w, hw, hcode⟩ := h.encode_decodeIn hd (htop u hu)
    refine ⟨?_, (h.decodedValue_near (htop u hu)).1, hlo, hhi, w, ?_, hcode⟩
    · rw [exec_qDecode, h.quantDecode_eq (by rw [h.toNat_code (htop u hu)]; exact htop u hu), finish_ok]
    · rw [exec_qEncode, hw, finish_ok]
  · rw [exec_qDecode, exec_qEncode, vel12_one_roundTrip.1, vel12_one_roundTrip.2]
    exact ⟨finish_ok _ _, finish_ok _ _⟩

end Sys2Proof.Machine

/-! Rules R160 to R168: the CAN frame codec (44_can.md). First the four bytes of an identifier, then the frame
builders and the parser, the classification, and the identifier fields. -/

namespace Sys2Proof.Machine

theorem exec_canBuildStd (id : U32) (data : List Byte) (s : State) :
    exec (.canBuildStd id data) s = finish (canBuild 0x08 0x7FF id data) s := rfl

theorem exec_canBuildExt (id : U32) (data : List Byte) (s : State) :
    exec (.canBuildExt id data) s = finish (canBuild 0x88 0x1FFFFFFF id data) s := rfl

theorem exec_canParse (frame : List Byte) (s : State) :
    exec (.canParse frame) s = finish (canParse frame) s := rfl

theorem exec_canClassify (info : Byte) (s : State) :
    exec (.canClassify info) s = .next (s.answering (.kind (canClassify info))) := rfl

theorem exec_idMakeStd (mode address : Byte) (s : State) :
    exec (.idMakeStd mode address) s = finish (idMakeStd mode address) s := rfl

theorem exec_idMakeExt (commandType : Byte) (aux16 : U16) (target : Byte) (s : State) :
    exec (.idMakeExt commandType aux16 target) s =
      .next (s.answering (.id (extId commandType aux16 target))) := rfl

theorem exec_idParseExt (id : U32) (s : State) : exec (.idParseExt id) s =
    .next (s.answering (.idFields (extCommandType id) (extAux id) (extTarget id))) := rfl

/-- The state an operation leaves shows the results it ended with. -/
theorem finish_eq_next_answering {x : Except Error Result} {r : Result} {s : State} :
    finish x s = .next (s.answering r) ↔ x = .ok r := by
  cases x with
  | ok r' => simp [State.answering]
  | error e => simp [State.answering, State.failing]

/-! The identifier's four bytes (rule R41). -/

/-- A field of a word by division. -/
theorem extractLsb'_eq_ofNat_div {w : Nat} (v : BitVec w) (start len : Nat) :
    v.extractLsb' start len = BitVec.ofNat len (v.toNat / 2 ^ start) := by
  rw [← Nat.shiftRight_eq_div_pow]
  rfl

theorem bytesBe_four_toNat {w : Nat} (v : BitVec w) : bytesBe v 4 =
    [BitVec.ofNat 8 (v.toNat / 2 ^ 24), BitVec.ofNat 8 (v.toNat / 2 ^ 16),
      BitVec.ofNat 8 (v.toNat / 2 ^ 8), BitVec.ofNat 8 v.toNat] := by
  simp only [bytesBe_four, extractLsb'_eq_ofNat_div, Nat.pow_zero, Nat.div_one]

theorem toNat_append_byte {w : Nat} (v : BitVec w) (b : Byte) :
    (v ++ b).toNat = v.toNat * 2 ^ 8 + b.toNat := by
  rw [BitVec.toNat_append, ← Nat.shiftLeft_add_eq_or_of_lt b.isLt, Nat.shiftLeft_eq]

theorem append_bytes_eq_ofNat (b1 b2 b3 b4 : Byte) : b1 ++ b2 ++ b3 ++ b4 =
    BitVec.ofNat 32 (b1.toNat * 2 ^ 24 + b2.toNat * 2 ^ 16 + b3.toNat * 2 ^ 8 + b4.toNat) := by
  apply BitVec.eq_of_toNat_eq
  simp only [toNat_append_byte, BitVec.toNat_ofNat]
  omega

/-- The bytes of an identifier, the most significant first, are the identifier again. -/
theorem append_extract_bytes (id : U32) :
    id.extractLsb' 24 8 ++ id.extractLsb' 16 8 ++ id.extractLsb' 8 8 ++ id.extractLsb' 0 8 = id := by
  apply BitVec.eq_of_toNat_eq
  simp only [toNat_append_byte, extractLsb'_eq_ofNat_div, BitVec.toNat_ofNat]
  omega

/-! The frame built (rule R66). -/

@[simp] theorem byteAt_canFrameOf_zero (info : Byte) (id : U32) (data : List Byte) :
    byteAt (canFrameOf info id data) 0 = info := rfl

@[simp] theorem be32_canFrameOf (info : Byte) (id : U32) (data : List Byte) :
    be32 (canFrameOf info id data) 1 = id :=
  append_extract_bytes id

theorem slice_canFrameOf (info : Byte) (id : U32) {data : List Byte} (h8 : data.length = 8) :
    slice (canFrameOf info id data) 5 13 = data :=
  List.take_of_length_le h8.le

/-! The builders' three ends (rules R161, R162). -/

section

variable {info : Byte} {maxId : Nat} {id : U32} {data : List Byte}

theorem canBuild_ok (h8 : data.length = 8) (hid : id.toNat ≤ maxId) :
    canBuild info maxId id data = .ok (.frame (canFrameOf info id data)) :=
  (if_neg (not_not.2 h8)).trans (if_neg hid.not_gt)

theorem canBuild_lengthError (h8 : data.length ≠ 8) :
    canBuild info maxId id data = .error (.length data.length) :=
  if_pos h8

theorem canBuild_rangeError (h8 : data.length = 8) (hid : maxId < id.toNat) :
    canBuild info maxId id data = .error (.range id.toNat) :=
  (if_neg (not_not.2 h8)).trans (if_pos hid)

/-- The one way a builder comes to a frame. -/
theorem canBuild_eq_frame {f : List Byte} : canBuild info maxId id data = .ok (.frame f) ↔
    data.length = 8 ∧ id.toNat ≤ maxId ∧ f = canFrameOf info id data := by
  by_cases h8 : data.length = 8
  · by_cases hid : id.toNat ≤ maxId
    · simp [canBuild_ok h8 hid, h8, hid, eq_comm]
    · simp [canBuild_rangeError h8 (Nat.lt_of_not_le hid), hid]
  · simp [canBuild_lengthError h8, h8]

end

/-- Settles O42: each clause is one of the builders' three ends. -/
theorem canBuildersBuildTheFrame : Obligations.CanBuildersBuildTheFrame := by
  intro s id data idBytes
  have hframe (info : Byte) : [info] ++ idBytes ++ data = canFrameOf info id data := by
    rw [canFrameOf, bytesBe_four_toNat]
  refine ⟨fun h8 hid => ?_, fun h8 hid => ?_, fun h8 => ⟨?_, ?_⟩, fun h8 hid => ?_, fun h8 hid => ?_⟩
  · rw [exec_canBuildStd, canBuild_ok h8 hid, finish_ok, hframe]
  · rw [exec_canBuildExt, canBuild_ok h8 hid, finish_ok, hframe]
  · rw [exec_canBuildStd, canBuild_lengthError h8, finish_error]
  · rw [exec_canBuildExt, canBuild_lengthError h8, finish_error]
  · rw [exec_canBuildStd, canBuild_rangeError h8 hid, finish_error]
  · rw [exec_canBuildExt, canBuild_rangeError h8 hid, finish_error]

/-- A frame built has 13 bytes, the builder's info byte, and an identifier within the builder's limit. -/
theorem built_frame_fields {info : Byte} {maxId : Nat} {id : U32} {data f : List Byte}
    (h : canBuild info maxId id data = .ok (.frame f)) :
    f.length = 13 ∧ byteAt f 0 = info ∧ (be32 f 1).toNat ≤ maxId := by
  obtain ⟨h8, hid, rfl⟩ := canBuild_eq_frame.1 h
  refine ⟨by rw [canFrameOf_length, h8], byteAt_canFrameOf_zero info id data, ?_⟩
  rwa [be32_canFrameOf]

/-- Settles O43: the flags are those of the constants `0x08` and `0x88`, and the limits are one below the two
powers. -/
theorem builtFramesAreThirteenBytes : Obligations.BuiltFramesAreThirteenBytes := by
  intro s id data f
  rw [exec_canBuildStd, exec_canBuildExt, finish_eq_next_answering, finish_eq_next_answering]
  refine ⟨fun h => ?_, fun h => ?_⟩
  · obtain ⟨hlength, hinfo, hid⟩ := built_frame_fields h
    rw [hinfo]
    exact ⟨hlength, by decide, by decide, by decide, Nat.lt_succ_of_le hid⟩
  · obtain ⟨hlength, hinfo, hid⟩ := built_frame_fields h
    rw [hinfo]
    exact ⟨hlength, by decide, by decide, by decide, Nat.lt_succ_of_le hid⟩

/-! The parser and the classification (rules R163, R164). -/

theorem canParse_ok {frame : List Byte} (h : frame.length = 13) : canParse frame =
    .ok (.canFrame (byteAt frame 0) (be32 frame 1) (slice frame 5 13)) :=
  if_neg (not_not.2 h)

theorem canParse_lengthError {frame : List Byte} (h : frame.length ≠ 13) :
    canParse frame = .error (.length frame.length) :=
  if_pos h

/-- Parsing a frame built gives back what it was built from (rule R168). -/
theorem canParse_canFrameOf (info : Byte) (id : U32) {data : List Byte} (h8 : data.length = 8) :
    canParse (canFrameOf info id data) = .ok (.canFrame info id data) := by
  rw [canParse_ok (by rw [canFrameOf_length, h8]), byteAt_canFrameOf_zero, be32_canFrameOf,
    slice_canFrameOf info id h8]

theorem canClassify_eq (info : Byte) : canClassify info =
    if info.toNat / 64 = 0 then .stdData else if info.toNat / 64 = 2 then .extData else .ignore := by
  have htop (k : Nat) (hk : k < 2 ^ 2) : info.extractLsb' 6 2 = BitVec.ofNat 2 k ↔ info.toNat / 64 = k := by
    rw [extractLsb'_eq_ofNat_div, ← BitVec.toNat_inj, BitVec.toNat_ofNat, BitVec.toNat_ofNat]
    omega
  simp only [canClassify, htop 0 (by decide), htop 2 (by decide)]

/-- Settles O44: the parser reads its fields at fixed places, and the kind goes by the top two bits, the
quotient by 64. -/
theorem canParseAndClassify : Obligations.CanParseAndClassify := by
  refine ⟨fun s info b1 b2 b3 b4 data h8 => ?_, fun s frame h => ?_,
    fun s info => ⟨fun h => ?_, fun h => ?_, fun h => ?_⟩⟩
  · have hdata : slice (info :: b1 :: b2 :: b3 :: b4 :: data) 5 13 = data :=
      List.take_of_length_le h8.le
    rw [exec_canParse, canParse_ok (by simp [h8]), finish_ok, ← append_bytes_eq_ofNat, hdata]
    rfl
  · rw [exec_canParse, canParse_lengthError h, finish_error]
  · rw [exec_canClassify, canClassify_eq, if_pos h]
  · rw [exec_canClassify, canClassify_eq, if_neg (by omega), if_pos h]
  · rw [exec_canClassify, canClassify_eq, if_neg (by omega), if_neg (by omega)]

/-! The identifiers (rules R165 to R167). -/

/-- Fields that do not overlap are added. -/
theorem toNat_shiftLeft_or {a b : U32} {k : Nat} (ha : a.toNat * 2 ^ k < 2 ^ 32) (hb : b.toNat < 2 ^ k) :
    (a <<< k ||| b).toNat = a.toNat * 2 ^ k + b.toNat := by
  rw [BitVec.toNat_or, BitVec.toNat_shiftLeft, Nat.shiftLeft_eq, Nat.mod_eq_of_lt ha, ← Nat.shiftLeft_eq,
    Nat.shiftLeft_add_eq_or_of_lt hb]

theorem stdId_eq_ofNat (mode address : Byte) :
    stdId mode address = BitVec.ofNat 32 (mode.toNat * 256 + address.toNat) := by
  apply BitVec.eq_of_toNat_eq
  have hmode : (mode.zeroExtend 32).toNat = mode.toNat := BitVec.toNat_setWidth_of_le (by decide)
  have haddress : (address.zeroExtend 32).toNat = address.toNat := BitVec.toNat_setWidth_of_le (by decide)
  rw [stdId, toNat_shiftLeft_or (by omega) (by omega), hmode, haddress, BitVec.toNat_ofNat]
  omega

theorem toNat_extId (commandType : Byte) (aux16 : U16) (target : Byte) :
    (extId commandType aux16 target).toNat =
      commandType.toNat % 32 * 2 ^ 24 + aux16.toNat * 2 ^ 8 + target.toNat := by
  have htype : ((commandType &&& 0x1F).zeroExtend 32).toNat = commandType.toNat % 32 := by
    rw [BitVec.zeroExtend_eq_setWidth, BitVec.toNat_setWidth_of_le (by decide), BitVec.toNat_and]
    exact Nat.and_two_pow_sub_one_eq_mod commandType.toNat 5
  have haux : (aux16.zeroExtend 32).toNat = aux16.toNat := BitVec.toNat_setWidth_of_le (by decide)
  have htarget : (target.zeroExtend 32).toNat = target.toNat := BitVec.toNat_setWidth_of_le (by decide)
  have hlow : (aux16.zeroExtend 32 <<< 8 ||| target.zeroExtend 32).toNat =
      aux16.toNat * 2 ^ 8 + target.toNat := by
    rw [toNat_shiftLeft_or (by omega) (by omega), haux, htarget]
  rw [extId, BitVec.or_assoc, toNat_shiftLeft_or (by omega) (by omega), htype, hlow, Nat.add_assoc]

theorem extCommandType_eq_ofNat (id : U32) : extCommandType id = BitVec.ofNat 8 (id.toNat / 2 ^ 24 % 32) := by
  rw [extCommandType, extractLsb'_eq_ofNat_div, BitVec.zeroExtend_eq_setWidth]
  apply BitVec.eq_of_toNat_eq
  rw [BitVec.toNat_setWidth, BitVec.toNat_ofNat, BitVec.toNat_ofNat]

theorem extAux_eq_ofNat (id : U32) : extAux id = BitVec.ofNat 16 (id.toNat / 2 ^ 8) :=
  extractLsb'_eq_ofNat_div id 8 16

theorem extTarget_eq_ofNat (id : U32) : extTarget id = BitVec.ofNat 8 id.toNat := by
  rw [extTarget, extractLsb'_eq_ofNat_div, Nat.pow_zero, Nat.div_one]

theorem idMakeStd_ok {mode : Byte} (address : Byte) (h : mode.toNat < 8) :
    idMakeStd mode address = .ok (.id (stdId mode address)) :=
  if_neg h.not_ge

theorem idMakeStd_rangeError {mode : Byte} (address : Byte) (h : 8 ≤ mode.toNat) :
    idMakeStd mode address = .error (.range mode.toNat) :=
  if_pos h

/-- Settles O45: the fields' places by multiplication and division. -/
theorem identifierFields : Obligations.IdentifierFields := by
  refine ⟨fun s mode address => ⟨fun h => ?_, fun h => ?_⟩, fun s commandType aux16 target => ?_,
    fun s id => ?_⟩
  · rw [exec_idMakeStd, idMakeStd_ok address h, finish_ok, stdId_eq_ofNat]
  · rw [exec_idMakeStd, idMakeStd_rangeError address h, finish_error]
  · rw [exec_idMakeExt, ← toNat_extId, BitVec.ofNat_toNat, BitVec.setWidth_eq]
  · rw [exec_idParseExt, extCommandType_eq_ofNat, extAux_eq_ofNat, extTarget_eq_ofNat]

/-! Parsing inverts building (rule R168). -/

theorem extCommandType_extId {t : Byte} (a : U16) (g : Byte) (ht : t.toNat < 32) :
    extCommandType (extId t a g) = t := by
  rw [extCommandType_eq_ofNat, toNat_extId]
  apply BitVec.eq_of_toNat_eq
  rw [BitVec.toNat_ofNat]
  omega

theorem extAux_extId (t : Byte) (a : U16) (g : Byte) : extAux (extId t a g) = a := by
  rw [extAux_eq_ofNat, toNat_extId]
  apply BitVec.eq_of_toNat_eq
  rw [BitVec.toNat_ofNat]
  omega

theorem extTarget_extId (t : Byte) (a : U16) (g : Byte) : extTarget (extId t a g) = g := by
  rw [extTarget_eq_ofNat, toNat_extId]
  apply BitVec.eq_of_toNat_eq
  rw [BitVec.toNat_ofNat]
  omega

/-- Settles O46: the witness is the frame, or the identifier, that the builder's pseudocode gives. -/
theorem parsingInvertsBuilding : Obligations.ParsingInvertsBuilding := by
  refine ⟨fun s id data hid h8 => ⟨canFrameOf 0x08 id data, ?_, ?_⟩,
    fun s id data hid h8 => ⟨canFrameOf 0x88 id data, ?_, ?_⟩,
    fun s t a g ht => ⟨extId t a g, exec_idMakeExt t a g s, ?_⟩⟩
  · rw [exec_canBuildStd, canBuild_ok h8 hid, finish_ok]
  · rw [exec_canParse, canParse_canFrameOf 0x08 id h8, finish_ok]
  · rw [exec_canBuildExt, canBuild_ok h8 hid, finish_ok]
  · rw [exec_canParse, canParse_canFrameOf 0x88 id h8, finish_ok]
  · rw [exec_idParseExt, extCommandType_extId a g ht, extAux_extId, extTarget_extId]

end Sys2Proof.Machine

/-! Rule R140, correct rounding: `round` gives the number of the format nearest to the exact one, and of two
equally near the one with the even significand. The argument counts in units of the last place: a number of the
format is a whole number of units, or lies below the binade that is rounded in and so farther off. -/

namespace Sys2Proof.Machine

/-! Rounding to a whole number. -/

/-- Every other whole number is at least a half off. -/
theorem half_le_of_ne_roundHalfEven {n d : Nat} (hd : 0 < d) {z : ℤ} (hz : z ≠ roundHalfEven n d) :
    1 / 2 ≤ |(z : ℚ) - n / d| := by
  have hone : (1 : ℚ) ≤ |(z : ℚ) - roundHalfEven n d| := by
    exact_mod_cast Int.one_le_abs (sub_ne_zero.mpr hz)
  have htriangle := abs_sub_le (z : ℚ) (n / d) (roundHalfEven n d)
  have herr := roundHalfEven_error n hd
  rw [abs_sub_comm] at herr
  linarith

theorem roundHalfEven_nearest (n : Nat) {d : Nat} (hd : 0 < d) (z : ℤ) :
    |(roundHalfEven n d : ℚ) - n / d| ≤ |(z : ℚ) - n / d| := by
  by_cases hz : z = roundHalfEven n d
  · rw [hz, Int.cast_natCast]
  · exact (roundHalfEven_error n hd).trans (half_le_of_ne_roundHalfEven hd hz)

/-- A quotient halfway between two whole numbers goes to the even one. -/
theorem roundHalfEven_even_of_half {n d : Nat} (hd : 0 < d)
    (h : |(roundHalfEven n d : ℚ) - n / d| = 1 / 2) : roundHalfEven n d % 2 = 0 := by
  have hd' : (d : ℚ) ≠ 0 := by exact_mod_cast hd.ne'
  have hhalf : 2 * (roundHalfEven n d * d) = 2 * n + d ∨ 2 * (roundHalfEven n d * d) + d = 2 * n := by
    rcases eq_or_eq_neg_of_abs_eq h with h | h
    · left
      field_simp at h
      exact_mod_cast (by linarith : 2 * ((roundHalfEven n d : ℚ) * d) = 2 * n + d)
    · right
      field_simp at h
      exact_mod_cast (by linarith : 2 * ((roundHalfEven n d : ℚ) * d) + d = 2 * n)
  have hn : n / d * d + n % d = n := Nat.div_add_mod' n d
  have hr : n % d < d := Nat.mod_lt n hd
  unfold roundHalfEven at hhalf ⊢
  simp only at hhalf ⊢
  split_ifs at hhalf ⊢
  · omega
  · rw [Nat.add_mul] at hhalf
    omega
  · omega

/-! The numbers of the format. -/

theorem signed_not (s : Bool) (m : Nat) : signed (!s) m = -signed s m := by
  cases s <;> simp

theorem isFloat_neg {f : Format} {v : ℚ} (h : f.IsFloat v) : f.IsFloat (-v) := by
  obtain ⟨s, t, q, hq, hover, rfl⟩ := h
  exact ⟨!s, t, q, hq, hover, by rw [signed_not, Int.cast_neg, neg_div]⟩

theorem isEven_neg {f : Format} {v : ℚ} (h : f.IsEven v) : f.IsEven (-v) := by
  obtain ⟨s, t, q, hq, hnormal, heven, rfl⟩ := h
  exact ⟨!s, t, q, hq, hnormal, heven, by rw [signed_not, Int.cast_neg, neg_div]⟩

/-- Rounding to nearest, ties to even, is symmetric. -/
theorem nearest_neg {f : Format} {v r : ℚ} (h : f.Nearest v r) : f.Nearest (-v) (-r) := by
  obtain ⟨hfloat, hle, htie⟩ := h
  have hsymm : ∀ a b : ℚ, |-a - -b| = |a - b| := fun a b => by rw [neg_sub_neg, abs_sub_comm]
  have hflip : ∀ y, |y - -v| = |-y - v| := fun y => by rw [← hsymm, neg_neg]
  refine ⟨isFloat_neg hfloat, fun y hy => ?_, fun y hy hne heq => ?_⟩
  · rw [hsymm, hflip]
    exact hle _ (isFloat_neg hy)
  · rw [hsymm, hflip] at heq
    exact isEven_neg (htie _ (isFloat_neg hy) (fun h => hne (neg_eq_iff_eq_neg.mp h)) heq)

/-- A significand with its carry `2^24` is a significand of 24 bits at the next exponent. -/
theorem exists_significand {q : Nat} (t : Nat) (hq : q ≤ 2 ^ 24) :
    ∃ q' t', q' < 2 ^ 24 ∧ q' * 2 ^ t' = q * 2 ^ t ∧ t' * 2 ^ 23 + q' = t * 2 ^ 23 + q ∧
      (t = 0 ∨ 2 ^ 23 ≤ q → t' = 0 ∨ 2 ^ 23 ≤ q') ∧ (q % 2 = 0 → q' % 2 = 0) := by
  rcases hq.lt_or_eq with hq | rfl
  · exact ⟨q, t, hq, rfl, rfl, id, id⟩
  · exact ⟨2 ^ 23, t + 1, by norm_num, by ring, by ring, fun _ => .inr le_rfl, fun _ => by norm_num⟩

/-- The unit of the last place of the numbers whose significand stands at the exponent `t`. -/
def ulp (t : Nat) : ℚ := 2 ^ t / 2 ^ 149

theorem ulp_pos (t : Nat) : 0 < ulp t := by
  unfold ulp
  positivity

theorem signed_pow_div (s : Bool) (q t : Nat) :
    (signed s (q * 2 ^ t) : ℚ) / 2 ^ 149 = signed s q * ulp t := by
  rw [signed_mul, ulp]
  push_cast
  ring

theorem mul_ulp_eq_of_pow_eq {q t q' t' : Nat} (h : q' * 2 ^ t' = q * 2 ^ t) :
    (q : ℚ) * ulp t = (signed false (q' * 2 ^ t') : ℚ) / 2 ^ binary32.unit := by
  rw [h, binary32_unit, signed_pow_div, signed_false, Int.cast_natCast]

theorem isFloat_mul_ulp {q t : Nat} (hq : q ≤ 2 ^ 24) (hover : t * 2 ^ 23 + q < 255 * 2 ^ 23) :
    binary32.IsFloat (q * ulp t) := by
  obtain ⟨q', t', hq', hval, hcode, -, -⟩ := exists_significand t hq
  exact ⟨false, t', q', hq', hcode.trans_lt hover, mul_ulp_eq_of_pow_eq hval⟩

theorem isEven_mul_ulp {q t : Nat} (hq : q ≤ 2 ^ 24) (hnormal : t = 0 ∨ 2 ^ 23 ≤ q) (heven : q % 2 = 0) :
    binary32.IsEven (q * ulp t) := by
  obtain ⟨q', t', hq', hval, -, hn, he⟩ := exists_significand t hq
  exact ⟨false, t', q', hq', hn hnormal, he heven, mul_ulp_eq_of_pow_eq hval⟩

/-- Seen from an exponent, a number of the format is a whole number of units or lies below the normal
significands. -/
theorem isFloat_whole_or_small {y : ℚ} (h : binary32.IsFloat y) (t : Nat) :
    (∃ z : ℤ, y = z * ulp t) ∨ t ≠ 0 ∧ y < 2 ^ 23 * ulp t := by
  obtain ⟨s, k, q, hq, -, rfl⟩ := h
  rw [binary32_unit]
  rcases le_or_gt t k with hk | hk
  · obtain ⟨j, rfl⟩ := Nat.exists_eq_add_of_le hk
    refine .inl ⟨signed s (q * 2 ^ j), ?_⟩
    rw [show q * 2 ^ (t + j) = q * 2 ^ j * 2 ^ t by ring, signed_pow_div]
  · refine .inr ⟨by omega, ?_⟩
    have hsigned : signed s (q * 2 ^ k) ≤ (q * 2 ^ k : Nat) := by cases s <;> simp
    have hlt : q * 2 ^ k < 2 ^ 23 * 2 ^ t := by
      calc q * 2 ^ k < 2 ^ 24 * 2 ^ k := by gcongr; exact hq
        _ = 2 ^ 23 * 2 ^ (k + 1) := by ring
        _ ≤ 2 ^ 23 * 2 ^ t := by gcongr <;> omega
    rw [ulp, ← mul_div_assoc]
    gcongr
    exact_mod_cast hsigned.trans_lt (Int.ofNat_lt.mpr hlt)

/-! The rounding. -/

theorem abs_mul_ulp_sub (a x : ℚ) (t : Nat) : |a * ulp t - x * ulp t| = |a - x| * ulp t := by
  rw [← sub_mul, abs_mul, abs_of_pos (ulp_pos t)]

/-- A number below the binade is farther off than the least normal significand, which is a whole number. -/
theorem abs_sub_lt_of_small {q t : Nat} {x y : ℚ} (hnear : ∀ z : ℤ, |(q : ℚ) - x| ≤ |z - x|)
    (hx : 2 ^ 23 ≤ x) (hy : y < 2 ^ 23 * ulp t) : |q * ulp t - x * ulp t| < |y - x * ulp t| := by
  have hu := ulp_pos t
  have hq : |(q : ℚ) - x| ≤ x - 2 ^ 23 := by
    have h := hnear (2 ^ 23 : ℕ)
    rwa [abs_sub_comm (Int.cast _), Int.cast_natCast, Nat.cast_pow, Nat.cast_ofNat,
      abs_of_nonneg (sub_nonneg.mpr hx)] at h
  calc |q * ulp t - x * ulp t| ≤ (x - 2 ^ 23) * ulp t := by rw [abs_mul_ulp_sub]; gcongr
    _ < x * ulp t - y := by linarith
    _ ≤ |y - x * ulp t| := by rw [abs_sub_comm]; exact le_abs_self _

/-- Where only whole numbers of units compete, the nearest whole number gives the nearest number. -/
theorem nearest_mul_ulp {q t : Nat} {x : ℚ} (hfloat : binary32.IsFloat (q * ulp t))
    (hx : t ≠ 0 → 2 ^ 23 ≤ x) (hnear : ∀ z : ℤ, |(q : ℚ) - x| ≤ |z - x|)
    (htie : ∀ z : ℤ, z ≠ q → |(q : ℚ) - x| = |z - x| → binary32.IsEven (q * ulp t)) :
    binary32.Nearest (x * ulp t) (q * ulp t) := by
  refine ⟨hfloat, fun y hy => ?_, fun y hy hne heq => ?_⟩
  all_goals rcases isFloat_whole_or_small hy t with ⟨z, rfl⟩ | ⟨h0, hlt⟩
  · rw [abs_mul_ulp_sub, abs_mul_ulp_sub]
    exact mul_le_mul_of_nonneg_right (hnear z) (ulp_pos t).le
  · exact (abs_sub_lt_of_small hnear (hx h0) hlt).le
  · rw [abs_mul_ulp_sub, abs_mul_ulp_sub] at heq
    exact htie z (fun h => hne (by rw [h, Int.cast_natCast])) (mul_right_cancel₀ (ulp_pos t).ne' heq)
  · exact absurd heq (abs_sub_lt_of_small hnear (hx h0) hlt).ne

/-- A rounding that does not overflow gives the number nearest to the one rounded. -/
theorem roundHalfEven_excess_nearest {n d : Nat} (hd : 0 < d)
    (hover : binary32.excess n d * 2 ^ 23 + roundHalfEven n (d * 2 ^ binary32.excess n d) < 255 * 2 ^ 23) :
    binary32.Nearest ((n : ℚ) / d / 2 ^ 149)
      (roundHalfEven n (d * 2 ^ binary32.excess n d) * ulp (binary32.excess n d)) := by
  have hq24 := roundHalfEven_excess_le n hd
  have hlow : binary32.excess n d ≠ 0 → _ := two_pow_excess_le (n := n) hd
  generalize binary32.excess n d = t at *
  have hD : 0 < d * 2 ^ t := by positivity
  have hunits : (n : ℚ) / d / 2 ^ 149 = n / (d * 2 ^ t : Nat) * ulp t := by
    rw [ulp]
    push_cast
    field_simp
  have hnormal : t = 0 ∨ 2 ^ 23 ≤ roundHalfEven n (d * 2 ^ t) := by
    refine or_iff_not_imp_left.mpr fun h0 => ?_
    have hfloor : 2 ^ 23 ≤ n / (d * 2 ^ t) := (Nat.le_div_iff_mul_le hD).mpr (hlow h0)
    rcases roundHalfEven_cases n (d * 2 ^ t) with h | h <;> omega
  rw [hunits]
  refine nearest_mul_ulp (isFloat_mul_ulp hq24 hover) (fun h0 => ?_) (roundHalfEven_nearest n hD)
    fun z hz heq => ?_
  · rw [le_div_iff₀ (by exact_mod_cast hD)]
    exact_mod_cast hlow h0
  · have hhalf := le_antisymm (roundHalfEven_error n hD) (heq ▸ half_le_of_ne_roundHalfEven hD hz)
    exact isEven_mul_ulp hq24 hnormal (roundHalfEven_even_of_half hD hhalf)

/-- A finite result of `round` is the number it is given, correctly rounded (rule R140). -/
theorem round_nearest {neg : Bool} {n d : Nat} {r : ℚ} (hd : 0 < d)
    (h : (binary32.round neg n d).value binary32 = some r) :
    binary32.Nearest ((signed neg n : ℚ) / d / 2 ^ 149) r := by
  unfold Format.round at h
  simp only at h
  split at h
  · cases h
  · next hover =>
    have hpos := roundHalfEven_excess_nearest hd (not_le.mp hover)
    rw [value_fin, binary32_unit, signed_pow_div] at h
    obtain rfl := Option.some.inj h
    cases neg with
    | false => simpa using hpos
    | true => simpa [neg_div] using nearest_neg hpos

theorem div_nearest {x y : Fp} {a b r : ℚ} (hx : x.value binary32 = some a) (hy : y.value binary32 = some b)
    (hb : b ≠ 0) (h : (binary32.div x y).value binary32 = some r) : binary32.Nearest (a / b) r := by
  obtain ⟨s, m, rfl, rfl⟩ := value_eq_some.mp hx
  obtain ⟨t, n, rfl, rfl⟩ := value_eq_some.mp hy
  have hn : n ≠ 0 := by
    rintro rfl
    cases t <;> simp at hb
  rw [div_fin s t m hn] at h
  have hexact : (signed (s ^^ t) (m * 2 ^ binary32.unit) : ℚ) / n / 2 ^ 149 =
      signed s m / 2 ^ 149 / (signed t n / 2 ^ 149) := by
    rw [signed_xor_div, signed_mul, Int.cast_mul, Int.cast_natCast, Nat.cast_pow, Nat.cast_ofNat,
      binary32_unit, div_right_comm, mul_div_cancel_right₀ _ (by positivity),
      div_div_div_cancel_right₀ (by positivity)]
  exact hexact ▸ round_nearest (Nat.pos_of_ne_zero hn) h

end Sys2Proof.Machine

/-! The standard dialect (45_std_dialect.md). The payload builders first (rules R180 to R190 and R192), then the
feedback decoder (rule R191): its packed codes, and the temperature in tenths. -/

namespace Sys2Proof.Machine

/-! The builders of rule R180's table. -/

theorem exec_stdEnable (s : State) :
    exec .stdEnable s = .next (s.answering (.data (stdPayload 0xFF 0xFC))) := rfl

theorem exec_stdStop (s : State) :
    exec .stdStop s = .next (s.answering (.data (stdPayload 0xFF 0xFD))) := rfl

theorem exec_stdSetZero (s : State) :
    exec .stdSetZero s = .next (s.answering (.data (stdPayload 0xFF 0xFE))) := rfl

theorem exec_stdFault (b : Byte) (s : State) :
    exec (.stdFault b) s = .next (s.answering (.data (stdPayload b 0xFB))) := rfl

theorem exec_stdSetMode (b : Byte) (s : State) :
    exec (.stdSetMode b) s = .next (s.answering (.data (stdPayload b 0xFC))) := rfl

theorem exec_stdSetMotorAddr (b : Byte) (s : State) :
    exec (.stdSetMotorAddr b) s = .next (s.answering (.data (stdPayload b 0xFA))) := rfl

theorem exec_stdSetProtocol (b : Byte) (s : State) :
    exec (.stdSetProtocol b) s = .next (s.answering (.data (stdPayload b 0xFD))) := rfl

theorem exec_stdSetMasterAddr (b : Byte) (s : State) :
    exec (.stdSetMasterAddr b) s = .next (s.answering (.data (stdPayload 0xFD b))) := rfl

theorem exec_stdPosition (x y : F32) (s : State) :
    exec (.stdPosition x y) s = .next (s.answering (.data (rawFloats x y))) := rfl

theorem exec_stdSpeed (x y : F32) (s : State) :
    exec (.stdSpeed x y) s = .next (s.answering (.data (rawFloats x y))) := rfl

theorem exec_stdFbDecode (data : List Byte) (s : State) :
    exec (.stdFbDecode data) s = finish (stdFeedback data) s := rfl

theorem stdPayload_eq (b6 b7 : Byte) :
    stdPayload b6 b7 = [0xFF, 0xFF, 0xFF, 0xFF, 0xFF, 0xFF, b6, b7] := rfl

/-- Two payloads of the table with one byte 7 and two bytes 6 differ in byte 6 alone (rule R192). -/
theorem stdPayload_differs_in_six {a b : Byte} (h : a ≠ b) (c : Byte) :
    (stdPayload a c)[7]? = (stdPayload b c)[7]? ∧ (stdPayload a c)[6]? ≠ (stdPayload b c)[6]? ∧
      (stdPayload a c).take 6 = (stdPayload b c).take 6 :=
  ⟨rfl, fun heq => h (Option.some.inj heq), rfl⟩

/-- Settles O47: each row of the table is six times `FF` and its two bytes. -/
theorem standardPayloads : Obligations.StandardPayloads := by
  intro s b
  simp only [← stdPayload_eq]
  exact ⟨exec_stdEnable s, exec_stdStop s, exec_stdSetZero s, exec_stdFault b s, exec_stdSetMode b s,
    exec_stdSetMotorAddr b s, exec_stdSetProtocol b s, exec_stdSetMasterAddr b s⟩

/-- The bytes of a word by division, the lowest first (rule R40). -/
theorem bytesLe_four_toNat {w : Nat} (v : BitVec w) : bytesLe v 4 =
    [BitVec.ofNat 8 v.toNat, BitVec.ofNat 8 (v.toNat / 2 ^ 8), BitVec.ofNat 8 (v.toNat / 2 ^ 16),
      BitVec.ofNat 8 (v.toNat / 2 ^ 24)] := by
  simp only [bytesLe_four, extractLsb'_eq_ofNat_div, Nat.pow_zero, Nat.div_one]

/-- Settles O48: both builders lay out the two patterns' bytes. -/
theorem rawFloatPayloads : Obligations.RawFloatPayloads := by
  intro s x y
  simp only [← bytesLe_four_toNat]
  exact ⟨exec_stdPosition x y s, exec_stdSpeed x y s⟩

/-- Settles O49: in each pair byte 6 is `FF` in the first payload and the operand in the second. -/
theorem sentinelOverlap : Obligations.SentinelOverlap := by
  intro s p hp
  obtain ⟨henable7, henable6, henable⟩ := stdPayload_differs_in_six (a := 0xFF) (b := 0) (by decide) 0xFC
  exact ⟨_, _, _, _, exec_stdEnable s, exec_stdSetMode 0 s, exec_stdStop s, exec_stdSetProtocol p s,
    henable7, henable6, henable, stdPayload_differs_in_six hp.symm 0xFD⟩

/-! The packed codes (rule R191). -/

/-- Over a documented domain `Q_DECODE` takes every code of its width. -/
theorem exec_qDecode_domain {d : Config.Domain} (hd : d ∈ domains) {n : Nat} (hn : n < 2 ^ d.bits.toNat)
    (s : State) : exec (.qDecode (BitVec.ofNat 32 n) d.min d.max d.bits) s =
      .next (s.answering (.value (decodeIn d (BitVec.ofNat 32 n)))) := by
  obtain ⟨lo, hi, h⟩ := domains_bounded hd
  have hle : n ≤ topCode d.bits := Nat.le_sub_one_of_lt hn
  rw [exec_qDecode, h.quantDecode_eq (by rwa [h.toNat_code hle]), finish_ok]

/-- Two bytes, the upper one first, by multiplication (rule R41). -/
theorem append_two_bytes (a b : Byte) : (a ++ b : U16) = BitVec.ofNat 16 (a.toNat * 256 + b.toNat) := by
  apply BitVec.eq_of_toNat_eq
  rw [toNat_append_byte, BitVec.toNat_ofNat]
  omega

/-- A byte and the upper nibble of the next. -/
theorem append_high_nibble (a b : Byte) :
    (a ++ b.extractLsb' 4 4 : BitVec 12) = BitVec.ofNat 12 (a.toNat * 16 + b.toNat / 16) := by
  apply BitVec.eq_of_toNat_eq
  rw [BitVec.toNat_append, ← Nat.shiftLeft_add_eq_or_of_lt (BitVec.isLt _), Nat.shiftLeft_eq,
    extractLsb'_eq_ofNat_div, BitVec.toNat_ofNat, BitVec.toNat_ofNat]
  omega

/-- The lower nibble of a byte and the next byte. -/
theorem low_nibble_append (a b : Byte) :
    (a.extractLsb' 0 4 ++ b : BitVec 12) = BitVec.ofNat 12 (a.toNat % 16 * 256 + b.toNat) := by
  apply BitVec.eq_of_toNat_eq
  rw [toNat_append_byte, extractLsb'_eq_ofNat_div, BitVec.toNat_ofNat, BitVec.toNat_ofNat]
  omega

theorem two_bytes_lt (a b : Byte) : a.toNat * 256 + b.toNat < 2 ^ 16 := by
  omega

theorem high_nibble_code_lt (a b : Byte) : a.toNat * 16 + b.toNat / 16 < 2 ^ 12 := by
  omega

theorem low_nibble_code_lt (a b : Byte) : a.toNat % 16 * 256 + b.toNat < 2 ^ 12 := by
  omega

/-- A code in its width is the same code in 32 bits. -/
theorem zeroExtend_ofNat {w n : Nat} (h : n < 2 ^ w) (hw : w ≤ 32) :
    (BitVec.ofNat w n).zeroExtend 32 = BitVec.ofNat 32 n := by
  rw [BitVec.zeroExtend_eq_setWidth, BitVec.setWidth_ofNat_of_le_of_lt hw h]

theorem stdFeedback_eq (b0 b1 b2 b3 b4 b5 b6 b7 : Byte) :
    stdFeedback [b0, b1, b2, b3, b4, b5, b6, b7] = .ok (.stdFeedback b0
      (decodeIn pos16 (BitVec.ofNat 32 (b1.toNat * 256 + b2.toNat)))
      (decodeIn vel12 (BitVec.ofNat 32 (b3.toNat * 16 + b4.toNat / 16)))
      (decodeIn tq12 (BitVec.ofNat 32 (b4.toNat % 16 * 256 + b5.toNat)))
      (tenths (BitVec.ofNat 16 (b6.toNat * 256 + b7.toNat)))) := by
  have hfields : stdFeedback [b0, b1, b2, b3, b4, b5, b6, b7] = .ok (.stdFeedback b0
      (decodeIn pos16 ((b1 ++ b2 : U16).zeroExtend 32))
      (decodeIn vel12 ((b3 ++ b4.extractLsb' 4 4 : BitVec 12).zeroExtend 32))
      (decodeIn tq12 ((b4.extractLsb' 0 4 ++ b5 : BitVec 12).zeroExtend 32)) (tenths (b6 ++ b7))) := rfl
  rw [hfields, append_two_bytes, append_high_nibble, low_nibble_append, append_two_bytes,
    zeroExtend_ofNat (two_bytes_lt b1 b2) (by norm_num),
    zeroExtend_ofNat (high_nibble_code_lt b3 b4) (by norm_num),
    zeroExtend_ofNat (low_nibble_code_lt b4 b5) (by norm_num)]

theorem stdFeedback_lengthError {data : List Byte} (h : data.length ≠ 8) :
    stdFeedback data = .error (.length data.length) :=
  if_pos h

/-! The temperature (rules R191, R220). -/

/-- The negative of a number is rounded to the negative of the result. -/
theorem round_true (n d : Nat) : binary32.round true n d = (binary32.round false n d).neg := by
  simp only [Format.round]
  split <;> rfl

/-- An integer of 24 bits and its sign is held exactly. -/
theorem ofInt_value_int {z : ℤ} (hz : z.natAbs < 2 ^ 24) :
    (binary32.ofInt z).value binary32 = some (z : ℚ) := by
  rcases lt_or_ge z 0 with hneg | hnonneg
  · have hsplit : binary32.ofInt z = (binary32.ofInt (z.natAbs : ℤ)).neg := by
      have hpos : ¬((z.natAbs : ℤ) < 0) := by omega
      simp only [Format.ofInt, hneg, hpos, decide_true, decide_false, Int.natAbs_natCast, round_true]
    have hcast : (z : ℚ) = -(z.natAbs : ℚ) := by
      exact_mod_cast (by omega : z = -(z.natAbs : ℤ))
    rw [hsplit, hcast, value_neg (ofInt_value hz)]
  · obtain ⟨k, rfl⟩ := Int.eq_ofNat_of_zero_le hnonneg
    rw [ofInt_value (by simpa using hz), Int.cast_natCast]

theorem tenths_zero : tenths 0 = 0 := by
  decide +kernel

/-- Both operands are exact, so the one rounding of the division is the only one. -/
theorem tenths_nearest (t : U16) :
    ∃ r, value32 (tenths t) = some r ∧ binary32.Nearest ((t.toInt : ℚ) / 10) r := by
  have hlow : -2 ^ 15 ≤ t.toInt := BitVec.le_toInt t
  have hhigh : t.toInt < 2 ^ 15 := BitVec.toInt_lt
  have hnum : (binary32.ofInt t.toInt).value binary32 = some (t.toInt : ℚ) := ofInt_value_int (by omega)
  have hten : (binary32.ofInt 10).value binary32 = some (10 : ℚ) := ofInt_value (k := 10) (by norm_num)
  have hsize : |(t.toInt : ℚ) / 10| < 2 ^ 100 := by
    have hlow' : (-2 ^ 15 : ℚ) ≤ t.toInt := by exact_mod_cast hlow
    have hhigh' : (t.toInt : ℚ) < 2 ^ 15 := by exact_mod_cast hhigh
    rw [abs_lt]
    constructor <;> linarith
  obtain ⟨r, hr, hpack, -⟩ := div_rounds hnum hten (by norm_num) hsize
  exact ⟨r, hpack 0, div_nearest hnum hten (by norm_num) hr⟩

/-- Settles O50: the packing by arithmetic, each code within its domain's width. -/
theorem standardFeedbackDecode : Obligations.StandardFeedbackDecode := by
  refine ⟨fun s b0 b1 b2 b3 b4 b5 b6 b7 => ?_, fun s data h => ?_⟩
  · obtain ⟨t, ht, hnearest⟩ := tenths_nearest (BitVec.ofNat 16 (b6.toNat * 256 + b7.toNat))
    refine ⟨_, _, _, _, t, exec_qDecode_domain (d := pos16) (by decide) (two_bytes_lt b1 b2) s,
      exec_qDecode_domain (d := vel12) (by decide) (high_nibble_code_lt b3 b4) s,
      exec_qDecode_domain (d := tq12) (by decide) (low_nibble_code_lt b4 b5) s, ht, hnearest, ?_, ?_⟩
    · rintro ⟨rfl, rfl⟩
      exact tenths_zero
    · rw [exec_stdFbDecode, stdFeedback_eq, finish_ok]
  · rw [exec_stdFbDecode, stdFeedback_lengthError h, finish_error]

end Sys2Proof.Machine

/-! The extended dialect (46_ext_dialect.md). The builders first (rules R202 to R214), with the values of a
parameter write (rule R208), then the classification (rule R216), three of the reply decoders (rules R217, R221,
R222), and a float written and read back (rule R224). -/

namespace Sys2Proof.Machine

theorem exec_extParamWrite (requester target : Byte) (index : U16) (value : ParamValue) (s : State) :
    exec (.extParamWrite requester target index value) s = finish (paramWrite requester target index value) s :=
  rfl

theorem exec_extClassify (id : U32) (s : State) :
    exec (.extClassify id) s = .next (s.answering (.decoder (extClassify id))) := rfl

theorem exec_extDecDeviceId (id : U32) (data : List Byte) (s : State) :
    exec (.extDecDeviceId id data) s = finish (decDeviceId id data) s := rfl

theorem exec_extDecParamRead (id : U32) (data : List Byte) (s : State) :
    exec (.extDecParamRead id data) s = finish (decParamRead id data) s := rfl

theorem exec_extDecFault (data : List Byte) (s : State) :
    exec (.extDecFault data) s = finish (decFault data) s := rfl

/-! The builders' identifiers (rules R200, R206). -/

/-- A command type within its five bits is not masked. -/
theorem extId_eq_ofNat {t : Nat} (ht : t < 32) (aux16 : U16) (target : Byte) :
    extId (BitVec.ofNat 8 t) aux16 target =
      BitVec.ofNat 32 (t * 2 ^ 24 + aux16.toNat * 2 ^ 8 + target.toNat) := by
  apply BitVec.eq_of_toNat_eq
  rw [toNat_extId, BitVec.toNat_ofNat, BitVec.toNat_ofNat]
  omega

theorem toNat_requesterAux (requester : Byte) : (requesterAux requester).toNat = requester.toNat * 2 ^ 8 := by
  rw [requesterAux, zeroExtend_shiftLeft_eight, BitVec.toNat_ofNat]
  omega

/-- `EXT_SET_ADDR`'s aux16: the new address above the requester. -/
theorem toNat_setAddrAux (newId requester : Byte) :
    (newId.zeroExtend 16 <<< 8 ||| requester.zeroExtend 16 : U16).toNat =
      newId.toNat * 2 ^ 8 + requester.toNat := by
  have hhigh : (newId.zeroExtend 16 <<< 8 : U16).toNat = newId.toNat * 2 ^ 8 := toNat_requesterAux newId
  have hlow : (requester.zeroExtend 16).toNat = requester.toNat := BitVec.toNat_setWidth_of_le (by decide)
  rw [BitVec.toNat_or, hhigh, hlow, ← Nat.shiftLeft_eq, Nat.shiftLeft_add_eq_or_of_lt requester.isLt]

/-- The identifier of every builder but `EXT_SET_ADDR`: the requester at bits 23:16, the target at bits 7:0. -/
theorem extId_requesterAux {t : Nat} (ht : t < 32) (requester target : Byte) :
    extId (BitVec.ofNat 8 t) (requesterAux requester) target =
      BitVec.ofNat 32 (t * 2 ^ 24 + requester.toNat * 2 ^ 16 + target.toNat) := by
  rw [extId_eq_ofNat ht, toNat_requesterAux, Nat.mul_assoc, ← Nat.pow_add]

theorem extId_setAddr {t : Nat} (ht : t < 32) (newId requester target : Byte) :
    extId (BitVec.ofNat 8 t) (newId.zeroExtend 16 <<< 8 ||| requester.zeroExtend 16) target =
      BitVec.ofNat 32 (t * 2 ^ 24 + newId.toNat * 2 ^ 16 + requester.toNat * 2 ^ 8 + target.toNat) := by
  rw [extId_eq_ofNat ht, toNat_setAddrAux, Nat.add_mul, Nat.mul_assoc, ← Nat.pow_add, ← Nat.add_assoc]

/-! The builders' answers. -/

/-- One argument for every builder with the requester's aux16: only its type and payload are its own. -/
theorem exec_of_extBuild {i : Instr} {s : State} {t : Nat} {requester target : Byte} {data : List Byte}
    (h : exec i s = succeed (extBuild (BitVec.ofNat 8 t) (requesterAux requester) target data) s)
    (ht : t < 32) : exec i s = .next (s.answering (.idData
      (BitVec.ofNat 32 (t * 2 ^ 24 + requester.toNat * 2 ^ 16 + target.toNat)) data)) := by
  rw [h, succeed, extBuild, extId_requesterAux ht]

theorem exec_extSetAddr (requester target newId : Byte) (s : State) :
    exec (.extSetAddr requester target newId) s = .next (s.answering (.idData (BitVec.ofNat 32
      (0x07 * 2 ^ 24 + newId.toNat * 2 ^ 16 + requester.toNat * 2 ^ 8 + target.toNat)) (zeros 8))) := by
  rw [← extId_setAddr (by decide)]
  rfl

theorem exec_extParamRead (requester target : Byte) (index : U16) (s : State) :
    exec (.extParamRead requester target index) s =
      .next (s.answering (.idData (BitVec.ofNat 32 (0x11 * 2 ^ 24 + requester.toNat * 2 ^ 16 + target.toNat))
        (bytesLe index 2 ++ zeros 6))) :=
  exec_of_extBuild rfl (by decide)

/-- Settles O51: `EXT_SET_ADDR` has an aux16 of its own, the others have the requester's. -/
theorem extendedBuilders : Obligations.ExtendedBuilders := by
  intro s r g c index clear id zero
  have hindex : exec (.extParamRead r g index) s = .next (s.answering (.idData (id 0x11)
      [BitVec.ofNat 8 index.toNat, BitVec.ofNat 8 (index.toNat / 256), 0, 0, 0, 0, 0, 0])) := by
    rw [exec_extParamRead, bytesLe_two_toNat]
    rfl
  exact ⟨exec_of_extBuild rfl (by decide), exec_of_extBuild rfl (by decide), exec_of_extBuild rfl (by decide),
    exec_of_extBuild rfl (by decide), exec_extSetAddr r g c s, hindex, exec_of_extBuild rfl (by decide),
    exec_of_extBuild rfl (by decide), exec_of_extBuild rfl (by decide), exec_of_extBuild rfl (by decide),
    exec_of_extBuild rfl (by decide), exec_of_extBuild rfl (by decide)⟩

/-! The values of a parameter write (rules R64, R208). -/

/-- A field of an integer's two's complement by division. -/
theorem extractLsb'_ofInt {w start len : Nat} (h : start + len ≤ w) (n : Int) :
    (BitVec.ofInt w n).extractLsb' start len = BitVec.ofInt len (n / 2 ^ start) := by
  have hmod : n % 2 ^ w / 2 ^ start % 2 ^ len = n / 2 ^ start % 2 ^ len := by
    obtain ⟨k, rfl⟩ := Nat.exists_eq_add_of_le h
    rw [Int.emod_def n, pow_add, pow_add, mul_assoc, mul_assoc,
      Int.sub_mul_ediv_left _ _ (by positivity), Int.sub_mul_emod_self_left]
  have hpow (k : Nat) : (0 : Int) ≤ n % 2 ^ k := Int.emod_nonneg _ (by positivity)
  have hlen : 0 ≤ n / 2 ^ start % 2 ^ len := Int.emod_nonneg _ (by positivity)
  rw [extractLsb'_eq_ofNat_div]
  apply BitVec.eq_of_toNat_eq
  zify
  simp [hlen, hpow, hmod]

theorem bytesLe_ofInt_one (n : Int) : bytesLe (BitVec.ofInt 8 n) 1 = [BitVec.ofInt 8 n] :=
  congrArg (fun b => [b]) BitVec.extractLsb'_eq_self

theorem bytesLe_ofInt_two (n : Int) :
    bytesLe (BitVec.ofInt 16 n) 2 = [BitVec.ofInt 8 n, BitVec.ofInt 8 (n / 256)] := by
  rw [bytesLe_two, extractLsb'_ofInt (by decide), extractLsb'_ofInt (by decide), pow_zero, Int.ediv_one]
  rfl

theorem bytesLe_ofInt_four (n : Int) : bytesLe (BitVec.ofInt 32 n) 4 =
    [BitVec.ofInt 8 n, BitVec.ofInt 8 (n / 2 ^ 8), BitVec.ofInt 8 (n / 2 ^ 16), BitVec.ofInt 8 (n / 2 ^ 24)] := by
  rw [bytesLe_four, extractLsb'_ofInt (by decide), extractLsb'_ofInt (by decide), extractLsb'_ofInt (by decide),
    extractLsb'_ofInt (by decide), pow_zero, Int.ediv_one]

theorem outside_eq_true {lo hi n : Int} : outside lo hi n = true ↔ n < lo ∨ hi < n := by
  simp [outside]

section

variable {lo hi n : Int}

/-- A number within its tag's range passes the check. -/
theorem rangeCheck_ok (hlo : lo ≤ n) (hhi : n ≤ hi) {e : Error} {v : List Byte} :
    (if outside lo hi n then .error e else .ok v : Except Error (List Byte)) = .ok v :=
  if_neg fun h => (outside_eq_true.1 h).elim hlo.not_gt hhi.not_gt

theorem rangeCheck_error (h : n < lo ∨ hi < n) {e : Error} {v : List Byte} :
    (if outside lo hi n then .error e else .ok v : Except Error (List Byte)) = .error e :=
  if_pos (outside_eq_true.2 h)

theorem paramBytes_u8_ok (hlo : 0 ≤ n) (hhi : n ≤ 0xFF) : paramBytes (.u8 n) = .ok [BitVec.ofInt 8 n] := by
  rw [← bytesLe_ofInt_one]
  exact rangeCheck_ok hlo hhi

theorem paramBytes_u16_ok (hlo : 0 ≤ n) (hhi : n ≤ 0xFFFF) :
    paramBytes (.u16 n) = .ok [BitVec.ofInt 8 n, BitVec.ofInt 8 (n / 256)] := by
  rw [← bytesLe_ofInt_two]
  exact rangeCheck_ok hlo hhi

theorem paramBytes_i16_ok (hlo : -32768 ≤ n) (hhi : n ≤ 32767) :
    paramBytes (.i16 n) = .ok [BitVec.ofInt 8 n, BitVec.ofInt 8 (n / 256)] := by
  rw [← bytesLe_ofInt_two]
  exact rangeCheck_ok hlo hhi

theorem paramBytes_u32_ok (hlo : 0 ≤ n) (hhi : n ≤ 0xFFFFFFFF) : paramBytes (.u32 n) =
    .ok [BitVec.ofInt 8 n, BitVec.ofInt 8 (n / 2 ^ 8), BitVec.ofInt 8 (n / 2 ^ 16),
      BitVec.ofInt 8 (n / 2 ^ 24)] := by
  rw [← bytesLe_ofInt_four]
  exact rangeCheck_ok hlo hhi

theorem paramBytes_f32 (x : F32) : paramBytes (.f32 x) = .ok (bytesLe x 4) := rfl

end

/-- The value stands at byte 4, after the index and two zero bytes, and zeros fill the payload. -/
theorem exec_extParamWrite_ok {value : ParamValue} {v : List Byte} (h : paramBytes value = .ok v)
    (requester target : Byte) (index : U16) (s : State) :
    exec (.extParamWrite requester target index value) s = .next (s.answering (.idData
      (BitVec.ofNat 32 (0x12 * 2 ^ 24 + requester.toNat * 2 ^ 16 + target.toNat))
      ([BitVec.ofNat 8 index.toNat, BitVec.ofNat 8 (index.toNat / 256), 0, 0] ++
        (v ++ zeros (4 - v.length))))) := by
  have hpad : canPayload (bytesLe index 2 ++ [0x00, 0x00] ++ v) =
      bytesLe index 2 ++ [0x00, 0x00] ++ (v ++ zeros (4 - v.length)) := by
    have hlength : constants.canDlc - (bytesLe index 2 ++ [0x00, 0x00] ++ v).length = 4 - v.length := by
      simp [constants]
      omega
    rw [canPayload, hlength, List.append_assoc]
  rw [exec_extParamWrite, ← extId_requesterAux (by decide)]
  simp only [paramWrite, h]
  rw [hpad, bytesLe_two_toNat]
  rfl

theorem exec_extParamWrite_error {value : ParamValue} {e : Error} (h : paramBytes value = .error e)
    (requester target : Byte) (index : U16) (s : State) :
    exec (.extParamWrite requester target index value) s = .next (s.failing e) := by
  rw [exec_extParamWrite, paramWrite, h]
  rfl

/-- Settles O52: each tag's range check, and the bytes of the value it lets through. -/
theorem parameterWrite : Obligations.ParameterWrite := by
  intro s r g index sent
  refine ⟨fun n hlo hhi => exec_extParamWrite_ok (paramBytes_u8_ok hlo hhi) r g index s,
    fun n hlo hhi => exec_extParamWrite_ok (paramBytes_u16_ok hlo hhi) r g index s,
    fun n hlo hhi => exec_extParamWrite_ok (paramBytes_i16_ok hlo hhi) r g index s,
    fun n hlo hhi => exec_extParamWrite_ok (paramBytes_u32_ok hlo hhi) r g index s, fun x => ?_,
    fun n => ⟨fun h => ?_, fun h => ?_, fun h => ?_, fun h => ?_⟩,
    fun str => exec_extParamWrite_error rfl r g index s⟩
  · rw [exec_extParamWrite_ok (paramBytes_f32 x), bytesLe_four_toNat]
    rfl
  · exact exec_extParamWrite_error (value := .u8 n) (rangeCheck_error h) r g index s
  · exact exec_extParamWrite_error (value := .u16 n) (rangeCheck_error h) r g index s
  · exact exec_extParamWrite_error (value := .i16 n) (rangeCheck_error h) r g index s
  · exact exec_extParamWrite_error (value := .u32 n) (rangeCheck_error h) r g index s

/-! The classification (rule R216). -/

theorem extCommandType_eq_iff (id : U32) {t : Nat} (ht : t < 32) :
    extCommandType id = BitVec.ofNat 8 t ↔ id.toNat / 2 ^ 24 % 32 = t := by
  rw [extCommandType_eq_ofNat, ← BitVec.toNat_inj, BitVec.toNat_ofNat, BitVec.toNat_ofNat]
  omega

theorem extClassify_eq (id : U32) : extClassify id =
    if id.toNat / 2 ^ 24 % 32 = 0x00 then .deviceId
    else if id.toNat / 2 ^ 24 % 32 = 0x02 then .feedback
    else if id.toNat / 2 ^ 24 % 32 = 0x11 then .paramRead
    else if id.toNat / 2 ^ 24 % 32 = 0x15 then .fault
    else if id.toNat / 2 ^ 24 % 32 = 0x18 then .feedback
    else .raw := by
  simp only [← extCommandType_eq_iff id (show 0x00 < 32 by decide),
    ← extCommandType_eq_iff id (show 0x02 < 32 by decide),
    ← extCommandType_eq_iff id (show 0x11 < 32 by decide),
    ← extCommandType_eq_iff id (show 0x15 < 32 by decide),
    ← extCommandType_eq_iff id (show 0x18 < 32 by decide)]
  rfl

/-- Settles O54: the five named types, and every other. -/
theorem extendedClassification : Obligations.ExtendedClassification := by
  intro s id
  rw [exec_extClassify]
  split
  case h_6 h0 h2 h11 h15 h18 =>
    rw [extClassify_eq, if_neg h0, if_neg h2, if_neg h11, if_neg h15, if_neg h18]
  all_goals
    next h =>
      rw [extClassify_eq, h]
      rfl

/-! The reply decoders (rules R217, R221, R222). -/

theorem decDeviceId_ok (id : U32) {data : List Byte} (h8 : data.length = 8) :
    decDeviceId id data = .ok (.deviceId (inboundAddress id) (be64 data 0)) :=
  if_neg (not_not.2 h8)

theorem decDeviceId_lengthError (id : U32) {data : List Byte} (h : data.length ≠ 8) :
    decDeviceId id data = .error (.length data.length) :=
  if_pos h

/-- The success flag is identifier bits 23:16, the aux16 high byte, at zero. -/
theorem extAux_high_eq_zero_iff (id : U32) :
    (extAux id).extractLsb' 8 8 = 0x00#8 ↔ id.toNat / 2 ^ 16 % 256 = 0 := by
  rw [extractLsb'_eq_ofNat_div, extAux_eq_ofNat, ← BitVec.toNat_inj, BitVec.toNat_ofNat, BitVec.toNat_ofNat,
    BitVec.toNat_ofNat]
  omega

theorem decParamRead_ok (id : U32) {data : List Byte} (h8 : data.length = 8) :
    decParamRead id data = .ok (.paramRead (le16 data 0) (decide (id.toNat / 2 ^ 16 % 256 = 0)) (slice data 4 8)
      (le32 data 4) (le32 data 4)) := by
  simp only [← extAux_high_eq_zero_iff]
  exact if_neg (not_not.2 h8)

theorem decParamRead_lengthError (id : U32) {data : List Byte} (h : data.length ≠ 8) :
    decParamRead id data = .error (.length data.length) :=
  if_pos h

theorem decFault_ok {data : List Byte} (h8 : data.length = 8) :
    decFault data = .ok (.faultWord (le32 data 0)) :=
  if_neg (not_not.2 h8)

theorem decFault_lengthError {data : List Byte} (h : data.length ≠ 8) :
    decFault data = .error (.length data.length) :=
  if_pos h

theorem inboundAddress_eq_ofNat (id : U32) : inboundAddress id = BitVec.ofNat 8 (id.toNat / 2 ^ 8) := by
  rw [inboundAddress, extractLsb'_eq_ofNat_div, extAux_eq_ofNat]
  apply BitVec.eq_of_toNat_eq
  simp only [BitVec.toNat_ofNat]
  omega

/-- Two words, the upper one first, by multiplication. -/
theorem append_two_words {m n : Nat} (hn : n < 2 ^ 32) :
    (BitVec.ofNat 32 m ++ BitVec.ofNat 32 n : U64) = BitVec.ofNat 64 (m * 2 ^ 32 + n) := by
  apply BitVec.eq_of_toNat_eq
  rw [BitVec.toNat_append, ← Nat.shiftLeft_add_eq_or_of_lt (BitVec.isLt _), Nat.shiftLeft_eq]
  simp only [BitVec.toNat_ofNat]
  omega

/-- Settles O55: the fields' bytes by arithmetic, or the length is refused. -/
theorem extendedReplies : Obligations.ExtendedReplies := by
  refine ⟨fun s id b0 b1 b2 b3 b4 b5 b6 b7 => ?_, fun s id data h => ⟨?_, ?_, ?_⟩⟩
  · intro data word
    have hword (p q u v : Byte) : p ++ q ++ u ++ v = BitVec.ofNat 32 (word p q u v) :=
      append_bytes_eq_ofNat p q u v
    have hdevice : be64 data 0 = BitVec.ofNat 64 (word b0 b1 b2 b3 * 2 ^ 32 + word b4 b5 b6 b7) := by
      have hlt : word b4 b5 b6 b7 < 2 ^ 32 := by
        change b4.toNat * 2 ^ 24 + b5.toNat * 2 ^ 16 + b6.toNat * 2 ^ 8 + b7.toNat < 2 ^ 32
        omega
      rw [← append_two_words hlt, ← hword, ← hword]
      rfl
    have hindex : le16 data 0 = BitVec.ofNat 16 (b1.toNat * 256 + b0.toNat) := append_two_bytes b1 b0
    have hvalue : le32 data 4 = BitVec.ofNat 32 (word b7 b6 b5 b4) := hword b7 b6 b5 b4
    have hfault : le32 data 0 = BitVec.ofNat 32 (word b3 b2 b1 b0) := hword b3 b2 b1 b0
    have hraw : slice data 4 8 = [b4, b5, b6, b7] := rfl
    refine ⟨?_, ?_, ?_⟩
    · rw [exec_extDecDeviceId, decDeviceId_ok id rfl, finish_ok, inboundAddress_eq_ofNat, hdevice]
    · rw [exec_extDecParamRead, decParamRead_ok id rfl, finish_ok, hindex, hraw, hvalue]
    · rw [exec_extDecFault, decFault_ok rfl, finish_ok, hfault]
  · rw [exec_extDecDeviceId, decDeviceId_lengthError id h, finish_error]
  · rw [exec_extDecParamRead, decParamRead_lengthError id h, finish_error]
  · rw [exec_extDecFault, decFault_lengthError h, finish_error]

/-! A float written and read back (rule R224). -/

/-- The two bytes of an index, laid out first, are read back as the index. -/
theorem le16_index (index : U16) (rest : List Byte) :
    le16 ([BitVec.ofNat 8 index.toNat, BitVec.ofNat 8 (index.toNat / 256)] ++ rest) 0 = index := by
  calc _ = BitVec.ofNat 16 index.toNat := append_ofNat_div index.toNat
    _ = index := by rw [BitVec.ofNat_toNat, BitVec.setWidth_eq]

/-- What `bytes_le` lays out at offset 4, `le32` reads back. -/
theorem le32_four_bytesLe (a b c d : Byte) (x : U32) : le32 ([a, b, c, d] ++ bytesLe x 4) 4 = x :=
  append_extract_bytes x

/-- The layout of a parameter write, read as a reply that reports success. -/
theorem decParamRead_written {id : U32} (hid : id.toNat / 2 ^ 16 % 256 = 0) (index : U16) (x : F32) :
    decParamRead id ([BitVec.ofNat 8 index.toNat, BitVec.ofNat 8 (index.toNat / 256), 0, 0] ++ bytesLe x 4) =
      .ok (.paramRead index true (bytesLe x 4) x x) := by
  have hindex : le16 ([BitVec.ofNat 8 index.toNat, BitVec.ofNat 8 (index.toNat / 256), 0, 0] ++ bytesLe x 4) 0 =
      index := le16_index index ([0, 0] ++ bytesLe x 4)
  rw [decParamRead_ok id rfl, hindex, le32_four_bytesLe, decide_eq_true hid]
  rfl

/-- Settles O53: the payload is the index's two bytes, two zeros, and the four bytes of the pattern. -/
theorem parameterWriteReadsBack : Obligations.ParameterWriteReadsBack := by
  intro s r g a x id hid
  refine ⟨_, _, bytesLe x 4, exec_extParamWrite_ok (paramBytes_f32 x) r g a s, ?_, rfl⟩
  exact congrArg (finish · s) (decParamRead_written hid a x)

end Sys2Proof.Machine

/-! Rules R244 and R245: which operations raise `ERR_DOMAIN` and `ERR_TYPE`. First what each operation's
pseudocode can raise, then the operations, then the quantizer's errors in full. -/

namespace Sys2Proof.Machine

/-! What an operation's pseudocode can raise. -/

/-- The only errors an operation's pseudocode comes to are those of a length or of an integer's range. -/
def RaisesLimits (x : Except Error Result) : Prop :=
  ∀ e, x = .error e → e.status = .errLength ∨ e.status = .errRange

theorem raisesLimits_ok (r : Result) : RaisesLimits (.ok r) :=
  fun _ he => nomatch he

theorem raisesLimits_length (n : Nat) : RaisesLimits (.error (.length n)) :=
  fun _ he => .inl (Except.error.inj he ▸ rfl)

theorem raisesLimits_range (v : Int) : RaisesLimits (.error (.range v)) :=
  fun _ he => .inr (Except.error.inj he ▸ rfl)

/-- A check whose two ends raise nothing else raises nothing else. -/
theorem raisesLimits_ite {c : Prop} [Decidable c] {x y : Except Error Result} (hx : RaisesLimits x)
    (hy : RaisesLimits y) : RaisesLimits (if c then x else y) := by
  split
  · exact hx
  · exact hy

theorem encodeFrame_raisesLimits (payload : List Byte) : RaisesLimits (encodeFrame payload) :=
  raisesLimits_ite (raisesLimits_length _) (raisesLimits_ok _)

theorem canBuild_raisesLimits (info : Byte) (maxId : Nat) (id : U32) (data : List Byte) :
    RaisesLimits (canBuild info maxId id data) :=
  raisesLimits_ite (raisesLimits_length _) (raisesLimits_ite (raisesLimits_range _) (raisesLimits_ok _))

theorem canParse_raisesLimits (frame : List Byte) : RaisesLimits (canParse frame) :=
  raisesLimits_ite (raisesLimits_length _) (raisesLimits_ok _)

theorem idMakeStd_raisesLimits (mode address : Byte) : RaisesLimits (idMakeStd mode address) :=
  raisesLimits_ite (raisesLimits_range _) (raisesLimits_ok _)

theorem stdFeedback_raisesLimits (data : List Byte) : RaisesLimits (stdFeedback data) :=
  raisesLimits_ite (raisesLimits_length _) (raisesLimits_ok _)

theorem decDeviceId_raisesLimits (id : U32) (data : List Byte) : RaisesLimits (decDeviceId id data) :=
  raisesLimits_ite (raisesLimits_length _) (raisesLimits_ok _)

theorem decFeedback_raisesLimits (id : U32) (data : List Byte) : RaisesLimits (decFeedback id data) :=
  raisesLimits_ite (raisesLimits_length _) (raisesLimits_ite (raisesLimits_ok _) (raisesLimits_ok _))

theorem decParamRead_raisesLimits (id : U32) (data : List Byte) : RaisesLimits (decParamRead id data) :=
  raisesLimits_ite (raisesLimits_length _) (raisesLimits_ok _)

theorem decFault_raisesLimits (data : List Byte) : RaisesLimits (decFault data) :=
  raisesLimits_ite (raisesLimits_length _) (raisesLimits_ok _)

/-- A parameter write passes its value's error on (rule R208). -/
theorem paramWrite_eq_error {requester target : Byte} {index : U16} {value : ParamValue} {e : Error} :
    paramWrite requester target index value = .error e ↔ paramBytes value = .error e := by
  unfold paramWrite
  split <;> simp [*]

/-- A value is refused for its number's range, or for being a `String` (rules R64, R208). -/
theorem paramBytes_error_cases {value : ParamValue} {e : Error} (h : paramBytes value = .error e) :
    e.status = .errRange ∨ ∃ str, value = .string str ∧ e = .type (paramTag value) := by
  cases value with
  | u8 | u16 | u32 | i16 =>
    simp only [paramBytes] at h
    split_ifs at h
    cases h
    exact .inl rfl
  | f32 x => cases h
  | string str => exact .inr ⟨str, rfl, (Except.error.inj h).symm⟩

/-! Which operations raise what. -/

theorem succeed_ne_next_failing {r : Result} {s t : State} {e : Error} :
    succeed r t ≠ .next (s.failing e) := fun h => by
  have hanswer : some (Answer.error e) = some (.ok r) := congrArg State.answer (succeed_eq_next.1 h)
  cases hanswer

theorem finish_eq_next_failing {x : Except Error Result} {s : State} {e : Error} :
    finish x s = .next (s.failing e) ↔ x = .error e := by
  cases x with
  | ok r => exact ⟨fun h => absurd h succeed_ne_next_failing, fun h => nomatch h⟩
  | error e' => simp [State.failing]

theorem limits_of_finish {x : Except Error Result} (hx : RaisesLimits x) {s : State} {e : Error}
    (h : finish x s = .next (s.failing e)) : e.status = .errLength ∨ e.status = .errRange :=
  hx e (finish_eq_next_failing.1 h)

/-- Every error but the quantizer's and that of writing a `String` is of a length or of an integer's range. -/
theorem exec_failing_cases {i : Instr} {s : State} {e : Error} (h : exec i s = .next (s.failing e)) :
    (e.status = .errLength ∨ e.status = .errRange) ∨
      (∃ x min max bits, i = .qEncode x min max bits ∧ quantEncode x min max bits = .error e) ∨
      (∃ u min max bits, i = .qDecode u min max bits ∧ quantDecode u min max bits = .error e) ∨
      ∃ requester target index str, i = .extParamWrite requester target index (.string str) ∧
        e.status = .errType := by
  cases i with
  | qEncode x min max bits => exact .inr (.inl ⟨x, min, max, bits, rfl, finish_eq_next_failing.1 h⟩)
  | qDecode u min max bits =>
    exact .inr (.inr (.inl ⟨u, min, max, bits, rfl, finish_eq_next_failing.1 h⟩))
  | extParamWrite requester target index value =>
    rcases paramBytes_error_cases (paramWrite_eq_error.1 (finish_eq_next_failing.1 h)) with
      hrange | ⟨str, rfl, rfl⟩
    · exact .inl (.inr hrange)
    · exact .inr (.inr (.inr ⟨requester, target, index, str, rfl, rfl⟩))
  | frmEncode => exact .inl (limits_of_finish (encodeFrame_raisesLimits _) h)
  | canBuildStd | canBuildExt => exact .inl (limits_of_finish (canBuild_raisesLimits _ _ _ _) h)
  | canParse => exact .inl (limits_of_finish (canParse_raisesLimits _) h)
  | idMakeStd => exact .inl (limits_of_finish (idMakeStd_raisesLimits _ _) h)
  | stdFbDecode => exact .inl (limits_of_finish (stdFeedback_raisesLimits _) h)
  | extDecDeviceId => exact .inl (limits_of_finish (decDeviceId_raisesLimits _ _) h)
  | extDecFeedback => exact .inl (limits_of_finish (decFeedback_raisesLimits _ _) h)
  | extDecParamRead => exact .inl (limits_of_finish (decParamRead_raisesLimits _ _) h)
  | extDecFault => exact .inl (limits_of_finish (decFault_raisesLimits _) h)
  | _ => exact absurd h succeed_ne_next_failing

/-! The quantizer's errors (rule R145). -/

/-- The bounds `check_range` lets through: finite and in rising order. -/
def RisingBounds (min max : F32) : Prop :=
  ∃ lo hi, value32 min = some lo ∧ value32 max = some hi ∧ lo < hi

theorem badRange_eq_true {min max : F32} : badRange min max = true ↔ ¬RisingBounds min max := by
  rw [← Bool.not_eq_false]
  exact not_congr badRange_eq_false

/-- A pattern is read as NaN exactly with the exponent field all ones and a nonzero fraction. -/
theorem unpack32_isNan_iff {x : F32} :
    (unpack32 x).isNan = true ↔ x.extractLsb' 23 8 = 0xFF#8 ∧ x.extractLsb' 0 23 ≠ 0#23 := by
  refine ⟨fun h => ?_, fun ⟨he, hm⟩ => unpack32_isNan he hm⟩
  simp only [unpack32] at h
  split_ifs at h with he hm hz
  · cases h
  · exact ⟨BitVec.eq_of_toNat_eq he, fun h0 => hm (congrArg BitVec.toNat h0)⟩
  · cases h
  · cases h

theorem wellFormed_qEncode {x min max : F32} {bits : Byte} :
    (Instr.qEncode x min max bits).wellFormed = true ↔ ¬badBits bits = true := by
  rw [badBits_eq_true]
  simp [Instr.wellFormed, Instr.lengthsOk, Instr.rangesOk, Nat.one_le_iff_ne_zero]

theorem wellFormed_qDecode {u : U32} {min max : F32} {bits : Byte} :
    (Instr.qDecode u min max bits).wellFormed = true ↔ ¬badBits bits = true ∧ ¬topCode bits < u.toNat := by
  have hpos : 0 < 2 ^ bits.toNat := Nat.two_pow_pos _
  rw [badBits_eq_true, topCode]
  simp only [Instr.wellFormed, Instr.lengthsOk, Instr.rangesOk, Bool.true_and, Bool.and_eq_true,
    decide_eq_true_eq]
  omega

/-- A check raises its own error, or passes and leaves the rest of the pseudocode. -/
theorem check_eq_error {c : Prop} [Decidable c] {a e : Error} {x : Except Error Result} :
    (if c then .error a else x) = .error e ↔ c ∧ e = a ∨ ¬c ∧ x = .error e := by
  split <;> simp [*, eq_comm]

/-- `Q_ENCODE`'s errors in the order of its checks. -/
theorem quantEncode_eq_error {x min max : F32} {bits : Byte} {e : Error} :
    quantEncode x min max bits = .error e ↔
      (badBits bits = true ∧ e = .range bits.toNat) ∨
      ((Instr.qEncode x min max bits).wellFormed = true ∧
        ((e = .domain [min, max] ∧ ¬RisingBounds min max) ∨
          (e = .domain [x] ∧ RisingBounds min max ∧ x.extractLsb' 23 8 = 0xFF#8 ∧
            x.extractLsb' 0 23 ≠ 0#23))) := by
  simp only [quantEncode, check_eq_error, wellFormed_qEncode, badRange_eq_true, unpack32_isNan_iff,
    reduceCtorEq]
  tauto

/-- `Q_DECODE`'s errors in the order of its checks. -/
theorem quantDecode_eq_error {u : U32} {min max : F32} {bits : Byte} {e : Error} :
    quantDecode u min max bits = .error e ↔
      (badBits bits = true ∧ e = .range bits.toNat) ∨
      (¬badBits bits = true ∧ topCode bits < u.toNat ∧ e = .range u.toNat) ∨
      ((Instr.qDecode u min max bits).wellFormed = true ∧ e = .domain [min, max] ∧
        ¬RisingBounds min max) := by
  simp only [quantDecode, check_eq_error, wellFormed_qDecode, badRange_eq_true, reduceCtorEq]
  tauto

/-- Settles O14: only the quantizer's checks raise `ERR_DOMAIN`, and they raise it after those of the integer
operands. -/
theorem domainErrorsAreExactlyTheQuantizers : Obligations.DomainErrorsAreExactlyTheQuantizers := by
  intro i s e
  constructor
  · rintro ⟨h, hstatus⟩
    rcases exec_failing_cases h with hlimit | ⟨x, min, max, bits, rfl, hq⟩ |
      ⟨u, min, max, bits, rfl, hq⟩ | ⟨_, _, _, _, -, htype⟩
    · simp [hstatus] at hlimit
    · rcases quantEncode_eq_error.1 hq with ⟨-, rfl⟩ | ⟨hwf, hcases⟩
      · cases hstatus
      · exact .inl ⟨x, min, max, bits, rfl, hwf, hcases⟩
    · rcases quantDecode_eq_error.1 hq with ⟨-, rfl⟩ | ⟨-, -, rfl⟩ | ⟨hwf, he, hbounds⟩
      · cases hstatus
      · cases hstatus
      · exact .inr ⟨u, min, max, bits, rfl, hwf, he, hbounds⟩
    · cases hstatus.symm.trans htype
  · rintro (⟨x, min, max, bits, rfl, hwf, hcases⟩ | ⟨u, min, max, bits, rfl, hwf, rfl, hbounds⟩)
    · refine ⟨finish_eq_next_failing.2 (quantEncode_eq_error.2 (.inr ⟨hwf, hcases⟩)), ?_⟩
      rcases hcases with ⟨rfl, -⟩ | ⟨rfl, -⟩ <;> rfl
    · exact ⟨finish_eq_next_failing.2 (quantDecode_eq_error.2 (.inr (.inr ⟨hwf, rfl, hbounds⟩))), rfl⟩

/-- Settles O15: no operation but the write of a `String` raises an error of another kind than a length's, a
range's or the quantizer's. -/
theorem typeErrorsAreExactlyStringWrites : Obligations.TypeErrorsAreExactlyStringWrites := by
  intro i s
  constructor
  · rintro ⟨e, h, hstatus⟩
    rcases exec_failing_cases h with hlimit | ⟨x, min, max, bits, rfl, hq⟩ |
      ⟨u, min, max, bits, rfl, hq⟩ | ⟨requester, target, index, str, hi, -⟩
    · simp [hstatus] at hlimit
    · rcases quantEncode_eq_error.1 hq with ⟨-, rfl⟩ | ⟨-, ⟨rfl, -⟩ | ⟨rfl, -⟩⟩ <;> cases hstatus
    · rcases quantDecode_eq_error.1 hq with ⟨-, rfl⟩ | ⟨-, -, rfl⟩ | ⟨-, rfl, -⟩ <;> cases hstatus
    · exact ⟨requester, target, index, str, hi⟩
  · rintro ⟨requester, target, index, str, rfl⟩
    exact ⟨.type (paramTag (.string str)), exec_extParamWrite_error rfl requester target index s, rfl⟩

end Sys2Proof.Machine

/-! Rules R60 to R63: what the decoder reads. Every row of the opcode table reads exactly the records of its
operand types, and what it reads it reads from its operation's own request. -/

namespace Sys2Proof

/-! The operand records, one shape at a time. -/

@[simp] theorem type_eq_u8 {o : Operand} : o.type = .u8 ↔ ∃ v, o = .u8 v := by
  cases o <;> simp [Operand.type]

@[simp] theorem type_eq_u16 {o : Operand} : o.type = .u16 ↔ ∃ v, o = .u16 v := by
  cases o <;> simp [Operand.type]

@[simp] theorem type_eq_u32 {o : Operand} : o.type = .u32 ↔ ∃ v, o = .u32 v := by
  cases o <;> simp [Operand.type]

@[simp] theorem type_eq_f32 {o : Operand} : o.type = .f32 ↔ ∃ v, o = .f32 v := by
  cases o <;> simp [Operand.type]

@[simp] theorem type_eq_bool {o : Operand} : o.type = .bool ↔ ∃ v, o = .bool v := by
  cases o <;> simp [Operand.type]

@[simp] theorem type_eq_bytes {o : Operand} : o.type = .bytes ↔ ∃ v, o = .bytes v := by
  cases o <;> simp [Operand.type]

@[simp] theorem type_eq_param {o : Operand} : o.type = .param ↔ ∃ v, o = .param v := by
  cases o <;> simp [Operand.type]

/-- The row reads the records of its operand types and no other, each from the request of the operation it
reads (rules R60, R61, R63). -/
structure OpRow.Reads (row : OpRow) : Prop where
  encodes : ∀ ops i, row.read ops = some i → encode i = ⟨row.code, ops⟩ ∧ ops.map Operand.type = row.operands
  accepts : ∀ ops, ops.map Operand.type = row.operands → ∃ i, row.read ops = some i

section

variable {code : Byte} {name : String}

theorem readU16Bytes_reads {f : U16 → List Byte → Instr}
    (h : ∀ a b, encode (f a b) = ⟨code, [.u16 a, .bytes b]⟩) :
    OpRow.Reads ⟨code, name, [.u16, .bytes], readU16Bytes f⟩ where
  encodes ops i hr := by
    simp only [readU16Bytes] at hr
    split at hr
    · exact Option.some.inj hr ▸ ⟨h _ _, rfl⟩
    · cases hr
  accepts ops ht := by
    obtain ⟨a, b, rfl⟩ : ∃ a b, ops = [.u16 a, .bytes b] := by
      simpa [List.map_eq_cons_iff] using ht
    exact ⟨f a b, rfl⟩

theorem readU16U8_reads {f : U16 → Byte → Instr}
    (h : ∀ a b, encode (f a b) = ⟨code, [.u16 a, .u8 b]⟩) :
    OpRow.Reads ⟨code, name, [.u16, .u8], readU16U8 f⟩ where
  encodes ops i hr := by
    simp only [readU16U8] at hr
    split at hr
    · exact Option.some.inj hr ▸ ⟨h _ _, rfl⟩
    · cases hr
  accepts ops ht := by
    obtain ⟨a, b, rfl⟩ : ∃ a b, ops = [.u16 a, .u8 b] := by
      simpa [List.map_eq_cons_iff] using ht
    exact ⟨f a b, rfl⟩

theorem readU8_reads {f : Byte → Instr}
    (h : ∀ a, encode (f a) = ⟨code, [.u8 a]⟩) :
    OpRow.Reads ⟨code, name, [.u8], readU8 f⟩ where
  encodes ops i hr := by
    simp only [readU8] at hr
    split at hr
    · exact Option.some.inj hr ▸ ⟨h _, rfl⟩
    · cases hr
  accepts ops ht := by
    obtain ⟨a, rfl⟩ : ∃ a, ops = [.u8 a] := by
      simpa [List.map_eq_cons_iff] using ht
    exact ⟨f a, rfl⟩

theorem readBytes_reads {f : List Byte → Instr}
    (h : ∀ a, encode (f a) = ⟨code, [.bytes a]⟩) :
    OpRow.Reads ⟨code, name, [.bytes], readBytes f⟩ where
  encodes ops i hr := by
    simp only [readBytes] at hr
    split at hr
    · exact Option.some.inj hr ▸ ⟨h _, rfl⟩
    · cases hr
  accepts ops ht := by
    obtain ⟨a, rfl⟩ : ∃ a, ops = [.bytes a] := by
      simpa [List.map_eq_cons_iff] using ht
    exact ⟨f a, rfl⟩

theorem readNone_reads {f : Instr}
    (h : encode f = ⟨code, []⟩) :
    OpRow.Reads ⟨code, name, [], readNone f⟩ where
  encodes ops i hr := by
    simp only [readNone] at hr
    split at hr
    · exact Option.some.inj hr ▸ ⟨h, rfl⟩
    · cases hr
  accepts ops ht := ⟨f, List.map_eq_nil_iff.1 ht ▸ rfl⟩

theorem readF32F32F32U8_reads {f : F32 → F32 → F32 → Byte → Instr}
    (h : ∀ a b c d, encode (f a b c d) = ⟨code, [.f32 a, .f32 b, .f32 c, .u8 d]⟩) :
    OpRow.Reads ⟨code, name, [.f32, .f32, .f32, .u8], readF32F32F32U8 f⟩ where
  encodes ops i hr := by
    simp only [readF32F32F32U8] at hr
    split at hr
    · exact Option.some.inj hr ▸ ⟨h _ _ _ _, rfl⟩
    · cases hr
  accepts ops ht := by
    obtain ⟨a, b, c, d, rfl⟩ : ∃ a b c d, ops = [.f32 a, .f32 b, .f32 c, .u8 d] := by
      simpa [List.map_eq_cons_iff] using ht
    exact ⟨f a b c d, rfl⟩

theorem readU32F32F32U8_reads {f : U32 → F32 → F32 → Byte → Instr}
    (h : ∀ a b c d, encode (f a b c d) = ⟨code, [.u32 a, .f32 b, .f32 c, .u8 d]⟩) :
    OpRow.Reads ⟨code, name, [.u32, .f32, .f32, .u8], readU32F32F32U8 f⟩ where
  encodes ops i hr := by
    simp only [readU32F32F32U8] at hr
    split at hr
    · exact Option.some.inj hr ▸ ⟨h _ _ _ _, rfl⟩
    · cases hr
  accepts ops ht := by
    obtain ⟨a, b, c, d, rfl⟩ : ∃ a b c d, ops = [.u32 a, .f32 b, .f32 c, .u8 d] := by
      simpa [List.map_eq_cons_iff] using ht
    exact ⟨f a b c d, rfl⟩

theorem readU32Bytes_reads {f : U32 → List Byte → Instr}
    (h : ∀ a b, encode (f a b) = ⟨code, [.u32 a, .bytes b]⟩) :
    OpRow.Reads ⟨code, name, [.u32, .bytes], readU32Bytes f⟩ where
  encodes ops i hr := by
    simp only [readU32Bytes] at hr
    split at hr
    · exact Option.some.inj hr ▸ ⟨h _ _, rfl⟩
    · cases hr
  accepts ops ht := by
    obtain ⟨a, b, rfl⟩ : ∃ a b, ops = [.u32 a, .bytes b] := by
      simpa [List.map_eq_cons_iff] using ht
    exact ⟨f a b, rfl⟩

theorem readU8U8_reads {f : Byte → Byte → Instr}
    (h : ∀ a b, encode (f a b) = ⟨code, [.u8 a, .u8 b]⟩) :
    OpRow.Reads ⟨code, name, [.u8, .u8], readU8U8 f⟩ where
  encodes ops i hr := by
    simp only [readU8U8] at hr
    split at hr
    · exact Option.some.inj hr ▸ ⟨h _ _, rfl⟩
    · cases hr
  accepts ops ht := by
    obtain ⟨a, b, rfl⟩ : ∃ a b, ops = [.u8 a, .u8 b] := by
      simpa [List.map_eq_cons_iff] using ht
    exact ⟨f a b, rfl⟩

theorem readU8U16U8_reads {f : Byte → U16 → Byte → Instr}
    (h : ∀ a b c, encode (f a b c) = ⟨code, [.u8 a, .u16 b, .u8 c]⟩) :
    OpRow.Reads ⟨code, name, [.u8, .u16, .u8], readU8U16U8 f⟩ where
  encodes ops i hr := by
    simp only [readU8U16U8] at hr
    split at hr
    · exact Option.some.inj hr ▸ ⟨h _ _ _, rfl⟩
    · cases hr
  accepts ops ht := by
    obtain ⟨a, b, c, rfl⟩ : ∃ a b c, ops = [.u8 a, .u16 b, .u8 c] := by
      simpa [List.map_eq_cons_iff] using ht
    exact ⟨f a b c, rfl⟩

theorem readU32_reads {f : U32 → Instr}
    (h : ∀ a, encode (f a) = ⟨code, [.u32 a]⟩) :
    OpRow.Reads ⟨code, name, [.u32], readU32 f⟩ where
  encodes ops i hr := by
    simp only [readU32] at hr
    split at hr
    · exact Option.some.inj hr ▸ ⟨h _, rfl⟩
    · cases hr
  accepts ops ht := by
    obtain ⟨a, rfl⟩ : ∃ a, ops = [.u32 a] := by
      simpa [List.map_eq_cons_iff] using ht
    exact ⟨f a, rfl⟩

theorem readF32F32_reads {f : F32 → F32 → Instr}
    (h : ∀ a b, encode (f a b) = ⟨code, [.f32 a, .f32 b]⟩) :
    OpRow.Reads ⟨code, name, [.f32, .f32], readF32F32 f⟩ where
  encodes ops i hr := by
    simp only [readF32F32] at hr
    split at hr
    · exact Option.some.inj hr ▸ ⟨h _ _, rfl⟩
    · cases hr
  accepts ops ht := by
    obtain ⟨a, b, rfl⟩ : ∃ a b, ops = [.f32 a, .f32 b] := by
      simpa [List.map_eq_cons_iff] using ht
    exact ⟨f a b, rfl⟩

theorem readU8U8Bool_reads {f : Byte → Byte → Bool → Instr}
    (h : ∀ a b c, encode (f a b c) = ⟨code, [.u8 a, .u8 b, .bool c]⟩) :
    OpRow.Reads ⟨code, name, [.u8, .u8, .bool], readU8U8Bool f⟩ where
  encodes ops i hr := by
    simp only [readU8U8Bool] at hr
    split at hr
    · exact Option.some.inj hr ▸ ⟨h _ _ _, rfl⟩
    · cases hr
  accepts ops ht := by
    obtain ⟨a, b, c, rfl⟩ : ∃ a b c, ops = [.u8 a, .u8 b, .bool c] := by
      simpa [List.map_eq_cons_iff, -Bool.exists_bool] using ht
    exact ⟨f a b c, rfl⟩

theorem readU8U8U8_reads {f : Byte → Byte → Byte → Instr}
    (h : ∀ a b c, encode (f a b c) = ⟨code, [.u8 a, .u8 b, .u8 c]⟩) :
    OpRow.Reads ⟨code, name, [.u8, .u8, .u8], readU8U8U8 f⟩ where
  encodes ops i hr := by
    simp only [readU8U8U8] at hr
    split at hr
    · exact Option.some.inj hr ▸ ⟨h _ _ _, rfl⟩
    · cases hr
  accepts ops ht := by
    obtain ⟨a, b, c, rfl⟩ : ∃ a b c, ops = [.u8 a, .u8 b, .u8 c] := by
      simpa [List.map_eq_cons_iff] using ht
    exact ⟨f a b c, rfl⟩

theorem readU8U8U16_reads {f : Byte → Byte → U16 → Instr}
    (h : ∀ a b c, encode (f a b c) = ⟨code, [.u8 a, .u8 b, .u16 c]⟩) :
    OpRow.Reads ⟨code, name, [.u8, .u8, .u16], readU8U8U16 f⟩ where
  encodes ops i hr := by
    simp only [readU8U8U16] at hr
    split at hr
    · exact Option.some.inj hr ▸ ⟨h _ _ _, rfl⟩
    · cases hr
  accepts ops ht := by
    obtain ⟨a, b, c, rfl⟩ : ∃ a b c, ops = [.u8 a, .u8 b, .u16 c] := by
      simpa [List.map_eq_cons_iff] using ht
    exact ⟨f a b c, rfl⟩

theorem readU8U8U16Param_reads {f : Byte → Byte → U16 → ParamValue → Instr}
    (h : ∀ a b c d, encode (f a b c d) = ⟨code, [.u8 a, .u8 b, .u16 c, .param d]⟩) :
    OpRow.Reads ⟨code, name, [.u8, .u8, .u16, .param], readU8U8U16Param f⟩ where
  encodes ops i hr := by
    simp only [readU8U8U16Param] at hr
    split at hr
    · exact Option.some.inj hr ▸ ⟨h _ _ _ _, rfl⟩
    · cases hr
  accepts ops ht := by
    obtain ⟨a, b, c, d, rfl⟩ : ∃ a b c d, ops = [.u8 a, .u8 b, .u16 c, .param d] := by
      simpa [List.map_eq_cons_iff] using ht
    exact ⟨f a b c d, rfl⟩

end

/-! The table. -/

theorem opcodeTable_reads : ∀ row ∈ opcodeTable, row.Reads := by
  simp only [opcodeTable, List.forall_mem_cons, List.not_mem_nil, false_imp_iff, implies_true, and_true]
  exact ⟨readU16Bytes_reads fun _ _ => rfl, readU16U8_reads fun _ _ => rfl, readU8_reads fun _ => rfl,
    readBytes_reads fun _ => rfl, readBytes_reads fun _ => rfl, readNone_reads rfl,
    readF32F32F32U8_reads fun _ _ _ _ => rfl, readU32F32F32U8_reads fun _ _ _ _ => rfl,
    readU32Bytes_reads fun _ _ => rfl, readU32Bytes_reads fun _ _ => rfl, readBytes_reads fun _ => rfl,
    readU8_reads fun _ => rfl, readU8U8_reads fun _ _ => rfl, readU8U16U8_reads fun _ _ _ => rfl,
    readU32_reads fun _ => rfl, readNone_reads rfl, readNone_reads rfl, readNone_reads rfl,
    readU8_reads fun _ => rfl, readU8_reads fun _ => rfl, readU8_reads fun _ => rfl,
    readU8_reads fun _ => rfl, readU8_reads fun _ => rfl, readF32F32_reads fun _ _ => rfl,
    readF32F32_reads fun _ _ => rfl, readBytes_reads fun _ => rfl, readU8U8_reads fun _ _ => rfl,
    readU8U8_reads fun _ _ => rfl, readU8U8Bool_reads fun _ _ _ => rfl, readU8U8_reads fun _ _ => rfl,
    readU8U8U8_reads fun _ _ _ => rfl, readU8U8U16_reads fun _ _ _ => rfl,
    readU8U8U16Param_reads fun _ _ _ _ => rfl, readU8U8_reads fun _ _ => rfl, readU8U8_reads fun _ _ => rfl,
    readU8U8U8_reads fun _ _ _ => rfl, readU8U8U8_reads fun _ _ _ => rfl, readU8U8U8_reads fun _ _ _ => rfl,
    readU8U8_reads fun _ _ => rfl, readU32_reads fun _ => rfl, readU32Bytes_reads fun _ _ => rfl,
    readU32Bytes_reads fun _ _ => rfl, readU32Bytes_reads fun _ _ => rfl, readBytes_reads fun _ => rfl,
    readU32_reads fun _ => rfl⟩

theorem opRow_eq_some {op : Byte} {row : OpRow} (h : opRow op = some row) : row.Reads ∧ row.code = op :=
  ⟨opcodeTable_reads row (List.mem_of_find?_eq_some h), by simpa using List.find?_some h⟩

theorem decode_eq_instr {r : Request} {i : Instr} :
    decode r = .instr i ↔ ∃ row, opRow r.op = some row ∧ row.read r.operands = some i := by
  unfold decode
  split
  · next h => simp [h]
  · next row h => split <;> simp [*]

theorem decode_eq_operandTypes {r : Request} {op : Byte} : decode r = .operandTypes op ↔
    r.op = op ∧ ∃ row, opRow r.op = some row ∧ row.read r.operands = none := by
  unfold decode
  split
  · next h => simp [h]
  · next row h => split <;> simp [*]

/-- The row of an operation's code reads the operation back from its own request. -/
theorem decode_encode (i : Instr) : decode (encode i) = .instr i := by
  cases i <;> rfl

/-- What a row reads, it reads from that operation's request. -/
theorem decode_eq_instr_iff_eq_encode (r : Request) (i : Instr) : decode r = .instr i ↔ r = encode i := by
  constructor
  · intro h
    obtain ⟨row, hrow, hread⟩ := decode_eq_instr.1 h
    obtain ⟨hreads, hcode⟩ := opRow_eq_some hrow
    rw [(hreads.encodes _ _ hread).1, hcode]
  · rintro rfl
    exact decode_encode i

/-- Settles O3: the rows read their operations' requests and nothing else. -/
theorem decodeInvertsEncode : Obligations.DecodeInvertsEncode :=
  decode_eq_instr_iff_eq_encode

/-- Settles O4: each request is the one its operation encodes to. -/
theorem sampleRequestsDecode : Obligations.SampleRequestsDecode := by
  simp only [Obligations.SampleRequestsDecode, decode_eq_instr_iff_eq_encode]
  exact ⟨rfl, rfl, rfl, rfl, rfl, rfl, rfl⟩

theorem decode_eq_operandTypes_iff_types_ne (r : Request) : decode r = .operandTypes r.op ↔
    ∃ row, opRow r.op = some row ∧ r.operands.map Operand.type ≠ row.operands := by
  rw [decode_eq_operandTypes, eq_self, true_and]
  refine exists_congr fun row => and_congr_right fun hrow => ?_
  obtain ⟨hreads, -⟩ := opRow_eq_some hrow
  constructor
  · intro hnone htypes
    obtain ⟨i, hi⟩ := hreads.accepts _ htypes
    cases hnone.symm.trans hi
  · intro htypes
    exact Option.eq_none_iff_forall_ne_some.2 fun i hi => htypes (hreads.encodes _ _ hi).2

end Sys2Proof


/-! How an operation ends (rules R31, R240, R241, R243), and with it how a step does. -/

namespace Sys2Proof.Machine

/-! Every end of an operation. -/

/-- An operation ends with result ports and the host's requests as they were, or with an error and nothing else
changed. -/
theorem exec_cases (i : Instr) (s : State) :
    (∃ (t : State) (r : Result), exec i s = .next (t.answering r) ∧ t.pending = s.pending) ∨
      ∃ e, exec i s = .next (s.failing e) := by
  cases hu : i.usesFs with
  | false =>
    obtain ⟨x, hexec, -⟩ := pure_answersWf i hu
    cases x with
    | ok r => exact .inl ⟨s, r, hexec s, rfl⟩
    | error e => exact .inr ⟨e, hexec s⟩
  | true =>
    cases i with
    | frmFeed b => exact .inl ⟨_, _, exec_frmFeed b s, feedByte_pending b s⟩
    | frmFeedBatch bs => exact .inl ⟨_, _, exec_frmFeedBatch bs s, feedBytes_pending bs s⟩
    | frmReset => exact .inl ⟨_, _, exec_frmReset s, resetFs_pending s⟩
    | _ => cases hu

/-- `ERR_ILLEGAL_OP` is the decoder's alone (rule R242). -/
theorem status_ne_illegalOp_of_exec {i : Instr} {s : State} {e : Error} (h : exec i s = .next (s.failing e)) :
    e.status ≠ .errIllegalOp := by
  rcases exec_failing_cases h with (hs | hs) | ⟨x, min, max, bits, -, hq⟩ | ⟨u, min, max, bits, -, hq⟩ |
    ⟨_, _, _, _, -, hs⟩
  · rw [hs]; decide
  · rw [hs]; decide
  · rcases quantEncode_eq_error.1 hq with ⟨-, rfl⟩ | ⟨-, ⟨rfl, -⟩ | ⟨rfl, -⟩⟩ <;> exact nofun
  · rcases quantDecode_eq_error.1 hq with ⟨-, rfl⟩ | ⟨-, -, rfl⟩ | ⟨-, rfl, -⟩ <;> exact nofun
  · rw [hs]; decide

/-- Settles O10: an error, if one is raised, is not the decoder's. -/
theorem everyOperationEndsWithAStatus : Obligations.EveryOperationEndsWithAStatus := by
  intro i s
  rcases exec_cases i s with ⟨t, r, h, hp⟩ | ⟨e, h⟩
  · exact ⟨_, _, h, answering_answer t r, hp, nofun⟩
  · exact ⟨_, _, h, failing_answer s e, rfl, status_ne_illegalOp_of_exec h⟩

/-- Settles O11: of the two ends of an operation, the one with an error. -/
theorem errorsWriteNoState : Obligations.ErrorsWriteNoState := by
  intro i s t e h ht
  rcases exec_cases i s with ⟨t', r, h', -⟩ | ⟨e', h'⟩
  · cases h.symm.trans h'
    cases ht
  · cases h.symm.trans h'
    cases ht
    rfl

/-! The step (rules R60, R62, R63). -/

theorem step_idle {s : State} (h : s.pending = []) : step s = .next s := by
  simp only [step, h]

theorem step_instr {s : State} {r : Request} {rest : List Request} {i : Instr} (hp : s.pending = r :: rest)
    (hd : decode r = .instr i) : step s = exec i { s with pending := rest } := by
  simp only [step, hp, hd]

theorem step_operandTypes {s : State} {r : Request} {rest : List Request} {op : Byte}
    (hp : s.pending = r :: rest) (hd : decode r = .operandTypes op) : step s = .fault (.operandTypes op) := by
  simp only [step, hp, hd]

/-- Settles O1. -/
theorem stepRunsTheDecodedOperation : Obligations.StepRunsTheDecodedOperation :=
  ⟨fun _ _ _ _ hp hd => step_instr hp hd, fun _ hp => step_idle hp⟩

/-- Settles O5: an operation and `ERR_ILLEGAL_OP` both answer a next state, so a step stops at a request's
operand types or not at all. -/
theorem operandTypesAreCheckedAtTheRequest : Obligations.OperandTypesAreCheckedAtTheRequest := by
  refine ⟨decode_eq_operandTypes_iff_types_ne, fun s => ?_⟩
  cases hp : s.pending with
  | nil => exact .inl ⟨s, step_idle hp, nofun⟩
  | cons r rest =>
    cases hd : decode r with
    | instr i =>
      obtain ⟨t, a, ht, -⟩ := everyOperationEndsWithAStatus i { s with pending := rest }
      refine .inl ⟨t, (step_instr hp hd).trans ht, ?_⟩
      rintro _ _ ⟨⟩
      rw [hd]
      exact nofun
    | unassignedOp op =>
      refine .inl ⟨_, step_unassignedOp hp hd, ?_⟩
      rintro _ _ ⟨⟩
      rw [hd]
      exact nofun
    | operandTypes op =>
      obtain ⟨rfl, -⟩ := decode_eq_operandTypes.1 hd
      exact .inr ⟨r, rest, rfl, hd, step_operandTypes hp hd⟩

/-- Settles O7. -/
theorem resetSatisfiesTheInvariant : Obligations.ResetSatisfiesTheInvariant :=
  ⟨⟨(inv_waitSync1 reset_phase).2 rfl, nofun⟩, reset_answer⟩

/-! The limits of lengths and of integers (rule R243), first for an operation's pseudocode. -/

/-- The pseudocode raises `ERR_LENGTH` exactly where the lengths are wrong, and `ERR_RANGE` exactly where they
are right and a range is not. -/
structure RaisesAtLimits {α : Type} (x : Except Error α) (lengths ranges : Bool) : Prop where
  length : (∃ n, x = .error (.length n)) ↔ lengths = false
  range : (∃ v, x = .error (.range v)) ↔ lengths = true ∧ ranges = false

section

variable {α β : Type} {c : Prop} [Decidable c] {x : Except Error α} {y : Except Error β} {lengths ranges : Bool}

theorem raisesAtLimits_ok (r : α) : RaisesAtLimits (.ok r) true true :=
  ⟨by simp, by simp⟩

theorem raisesAtLimits_congr (h : ∀ e, x = .error e ↔ y = .error e) (hy : RaisesAtLimits y lengths ranges) :
    RaisesAtLimits x lengths ranges :=
  ⟨by simpa only [h] using hy.length, by simpa only [h] using hy.range⟩

/-- A check of a length that raises its error fails exactly for a wrong length. -/
theorem raisesAtLimits_lengthCheck {n : Nat} (hc : c → lengths = false)
    (h : ¬c → RaisesAtLimits x lengths ranges) :
    RaisesAtLimits (if c then .error (.length n) else x) lengths ranges := by
  split
  · next hbad => exact ⟨by simp [hc hbad], by simp [hc hbad]⟩
  · next hok => exact h hok

theorem raisesAtLimits_rangeCheck {v : Int} (hc : c → ranges = false)
    (h : ¬c → RaisesAtLimits x true ranges) :
    RaisesAtLimits (if c then .error (.range v) else x) true ranges := by
  split
  · next hbad => exact ⟨by simp, by simp [hc hbad]⟩
  · next hok => exact h hok

theorem raisesAtLimits_domainCheck {xs : List F32} (h : RaisesAtLimits x true true) :
    RaisesAtLimits (if c then .error (.domain xs) else x) true true := by
  split
  · exact ⟨by simp, by simp⟩
  · exact h

/-- The one limit of most operations: a byte sequence of a given length. -/
theorem raisesAtLimits_length_eq {data : List Byte} {n : Nat} (h : RaisesAtLimits x true ranges) :
    RaisesAtLimits (if data.length ≠ n then .error (.length data.length) else x)
      (decide (data.length = n)) ranges :=
  raisesAtLimits_lengthCheck (fun hne => decide_eq_false hne) fun heq => by
    rwa [decide_eq_true (not_not.1 heq)]

end

theorem encodeFrame_raisesAtLimits (payload : List Byte) :
    RaisesAtLimits (encodeFrame payload) (Instr.frmEncode payload).lengthsOk true := by
  have hlengths : (Instr.frmEncode payload).lengthsOk = true ↔
      ¬(payload.length = 0 ∨ constants.maxFrame - constants.hdrLen < payload.length) := by
    simp only [Instr.lengthsOk, Bool.and_eq_true, decide_eq_true_eq]
    omega
  refine raisesAtLimits_lengthCheck (fun hbad => ?_) fun hok => ?_
  · exact Bool.eq_false_iff.2 (mt hlengths.1 (not_not.2 hbad))
  · rw [hlengths.2 hok]
    exact raisesAtLimits_ok _

theorem not_badBits_iff {bits : Byte} : ¬badBits bits = true ↔ 1 ≤ bits.toNat ∧ bits.toNat ≤ 16 := by
  rw [badBits_eq_true]
  omega

theorem quantEncode_raisesAtLimits (x min max : F32) (bits : Byte) :
    RaisesAtLimits (quantEncode x min max bits) true (Instr.qEncode x min max bits).rangesOk := by
  have hranges : (Instr.qEncode x min max bits).rangesOk = true ↔ ¬badBits bits = true := by
    simp only [Instr.rangesOk, Bool.and_eq_true, decide_eq_true_eq, not_badBits_iff]
  refine raisesAtLimits_rangeCheck (fun hbad => ?_) fun hok => ?_
  · exact Bool.eq_false_iff.2 (mt hranges.1 (not_not.2 hbad))
  · rw [hranges.2 hok]
    exact raisesAtLimits_domainCheck (raisesAtLimits_domainCheck (raisesAtLimits_ok _))

theorem quantDecode_raisesAtLimits (u : U32) (min max : F32) (bits : Byte) :
    RaisesAtLimits (quantDecode u min max bits) true (Instr.qDecode u min max bits).rangesOk := by
  have hranges : (Instr.qDecode u min max bits).rangesOk = true ↔
      ¬badBits bits = true ∧ ¬topCode bits < u.toNat :=
    wellFormed_qDecode (min := min) (max := max)
  refine raisesAtLimits_rangeCheck (fun hbad => ?_) fun hbits => raisesAtLimits_rangeCheck (fun hbad => ?_)
    fun hu => ?_
  · exact Bool.eq_false_iff.2 fun h => (hranges.1 h).1 hbad
  · exact Bool.eq_false_iff.2 fun h => (hranges.1 h).2 hbad
  · rw [hranges.2 ⟨hbits, hu⟩]
    exact raisesAtLimits_domainCheck (raisesAtLimits_ok _)

theorem canBuild_raisesAtLimits (info : Byte) (maxId : Nat) (id : U32) (data : List Byte) :
    RaisesAtLimits (canBuild info maxId id data) (decide (data.length = constants.canDlc))
      (decide (id.toNat ≤ maxId)) :=
  raisesAtLimits_length_eq <| raisesAtLimits_rangeCheck (fun hbad => decide_eq_false hbad.not_ge) fun hok => by
    rw [decide_eq_true (Nat.le_of_not_lt hok)]
    exact raisesAtLimits_ok _

theorem idMakeStd_raisesAtLimits (mode address : Byte) :
    RaisesAtLimits (idMakeStd mode address) true (decide (mode.toNat < 8)) :=
  raisesAtLimits_rangeCheck (fun hbad => decide_eq_false hbad.not_gt) fun hok => by
    rw [decide_eq_true (Nat.lt_of_not_le hok)]
    exact raisesAtLimits_ok _

theorem decFeedback_raisesAtLimits (id : U32) (data : List Byte) :
    RaisesAtLimits (decFeedback id data) (decide (data.length = constants.canDlc)) true :=
  raisesAtLimits_length_eq <| by
    split
    · exact raisesAtLimits_ok _
    · exact raisesAtLimits_ok _

/-- The check of the two bounds that rule R64 gives a tag. -/
theorem raisesAtLimits_outside {α : Type} (lo hi v : Int) (r : α) :
    RaisesAtLimits (if outside lo hi v then .error (.range v) else .ok r) true
      (decide (lo ≤ v) && decide (v ≤ hi)) := by
  have hinside : (decide (lo ≤ v) && decide (v ≤ hi)) = !outside lo hi v := by
    rw [Bool.eq_iff_iff]
    simp [outside]
  rw [hinside]
  refine raisesAtLimits_rangeCheck (fun hbad => by rw [hbad]; rfl) fun hok => ?_
  rw [Bool.eq_false_iff.2 hok]
  exact raisesAtLimits_ok r

theorem paramBytes_raisesAtLimits (value : ParamValue) : RaisesAtLimits (paramBytes value) true value.inRange := by
  cases value with
  | u8 | u16 | u32 | i16 => exact raisesAtLimits_outside _ _ _ _
  | f32 => exact raisesAtLimits_ok _
  | string => exact ⟨by simp [paramBytes], by simp [paramBytes, ParamValue.inRange]⟩

/-! The limits of an operation. -/

/-- The operation's two errors arise exactly outside its limits. -/
def EndsAtLimits (i : Instr) (s : State) : Prop :=
  ((∃ n, exec i s = .next (s.failing (.length n))) ↔ i.lengthsOk = false) ∧
    ((∃ v, exec i s = .next (s.failing (.range v))) ↔ i.lengthsOk = true ∧ i.rangesOk = false)

theorem endsAtLimits_of_finish {i : Instr} {s : State} {x : Except Error Result}
    (hx : RaisesAtLimits x i.lengthsOk i.rangesOk) (h : exec i s = finish x s) : EndsAtLimits i s := by
  simp only [EndsAtLimits, h, finish_eq_next_failing]
  exact ⟨hx.length, hx.range⟩

/-- An operation without errors has no limits. -/
theorem endsAtLimits_of_succeed {i : Instr} {s t : State} {r : Result} (h : exec i s = succeed r t)
    (hl : i.lengthsOk = true) (hr : i.rangesOk = true) : EndsAtLimits i s := by
  simp [EndsAtLimits, h, succeed_ne_next_failing, hl, hr]

/-- Settles O12: the checks of lengths and integers in the operations' pseudocode are the limits of the rules. -/
theorem lengthAndRangeErrorsAreExactlyTheLimits : Obligations.LengthAndRangeErrorsAreExactlyTheLimits := by
  intro i s
  change EndsAtLimits i s
  cases i with
  | frmEncode => exact endsAtLimits_of_finish (encodeFrame_raisesAtLimits _) rfl
  | qEncode => exact endsAtLimits_of_finish (quantEncode_raisesAtLimits _ _ _ _) rfl
  | qDecode => exact endsAtLimits_of_finish (quantDecode_raisesAtLimits _ _ _ _) rfl
  | canBuildStd => exact endsAtLimits_of_finish (canBuild_raisesAtLimits _ 0x7FF _ _) rfl
  | canBuildExt => exact endsAtLimits_of_finish (canBuild_raisesAtLimits _ 0x1FFFFFFF _ _) rfl
  | idMakeStd => exact endsAtLimits_of_finish (idMakeStd_raisesAtLimits _ _) rfl
  | extParamWrite => exact endsAtLimits_of_finish (raisesAtLimits_congr (fun _ => paramWrite_eq_error)
      (paramBytes_raisesAtLimits _)) rfl
  | extDecFeedback => exact endsAtLimits_of_finish (decFeedback_raisesAtLimits _ _) rfl
  | canParse | stdFbDecode | extDecDeviceId | extDecParamRead | extDecFault =>
    exact endsAtLimits_of_finish (raisesAtLimits_length_eq (raisesAtLimits_ok _)) rfl
  | _ => exact endsAtLimits_of_succeed rfl rfl rfl

end Sys2Proof.Machine

/-! Rules R26, R27 and R30: which bytes of `FS.buf` an operation can read. Two synchronizers that agree where the
spec defines a value hold the same bytes of the current frame, and a byte does to both the same. -/

namespace Sys2Proof.Machine

/-! What two agreeing synchronizers hold. -/

theorem count_le_of_inv {fs : Fs} (h : fs.Inv) : fs.count.toNat ≤ 511 := by
  cases hp : fs.phase with
  | waitSync1 => have := (inv_waitSync1 hp).1 h; omega
  | waitSync2 => obtain ⟨hc, -⟩ := (inv_waitSync2 hp).1 h; omega
  | readHeader => obtain ⟨-, hc, -⟩ := (inv_readHeader hp).1 h; omega
  | readPayload => obtain ⟨-, hc, -, hl, -⟩ := (inv_readPayload hp).1 h; omega

theorem length_take_bytes {fs : Fs} (h : fs.count.toNat ≤ 511) :
    (fs.bytes.take fs.count.toNat).length = fs.count.toNat := by
  rw [List.length_take, bytes_length, maxFrame_eq]
  omega

/-- A synchronizer holds the bytes its count says are defined. -/
theorem holds_take {fs : Fs} {p : Phase} (hp : fs.phase = p) (h : fs.count.toNat ≤ 511) :
    fs.Holds p (fs.bytes.take fs.count.toNat) where
  phase := hp
  count := (length_take_bytes h).symm
  bytes := by rw [length_take_bytes h]

theorem Fs.Holds.of_agree {a b : Fs} {p : Phase} {held : List Byte} (h : a.Holds p held) (hab : a.Agree b) :
    b.Holds p held := by
  obtain ⟨hphase, hcount, -, hbuf⟩ := hab
  refine ⟨hphase ▸ h.phase, hcount ▸ h.count, ?_⟩
  have htake : b.bytes.take held.length = a.bytes.take held.length := by
    apply List.ext_getElem?
    intro k
    simp only [List.getElem?_take, Fs.bytes, Vector.getElem?_toList]
    split
    · next hk => exact (hbuf k (h.count ▸ hk)).symm
    · rfl
  rw [htake, h.bytes]

theorem agree_of_holds {a b : Fs} {p : Phase} {held : List Byte} (ha : a.Holds p held) (hb : b.Holds p held)
    (hlen : p = .readPayload → a.len = b.len) : a.Agree b := by
  refine ⟨ha.phase.trans hb.phase.symm, BitVec.eq_of_toNat_eq (ha.count.trans hb.count.symm),
    fun hp => hlen (ha.phase ▸ hp), fun k hk => ?_⟩
  have hget {fs : Fs} (h : fs.Holds p held) : fs.buf[k]? = held[k]? := by
    rw [← Vector.getElem?_toList, ← List.getElem?_take_of_lt (ha.count ▸ hk)]
    exact congrArg (·[k]?) h.bytes
  rw [hget ha, hget hb]

theorem resetFs_agree (s₁ s₂ : State) : (resetFs s₁).fs.Agree (resetFs s₂).fs :=
  ⟨rfl, rfl, nofun, fun _ hk => nomatch hk⟩

/-! One byte to two agreeing synchronizers. -/

/-- The two ends of a feed show the same event and agree. -/
def SameFeed (x y : State × Event) : Prop :=
  x.2 = y.2 ∧ x.1.fs.Agree y.1.fs

theorem sameFeed_of_holds {x y : State × Event} {t u : State} {p : Phase} {held : List Byte}
    (hx : x = (t, .none)) (ht : t.fs.Holds p held) (hy : y = (u, .none)) (hu : u.fs.Holds p held)
    (hlen : p = .readPayload → t.fs.len = u.fs.len) : SameFeed x y := by
  subst hx hy
  exact ⟨rfl, agree_of_holds ht hu hlen⟩

theorem sameFeed_of_resetFs {x y : State × Event} {s₁ s₂ : State} {e : Event} (hx : x = (resetFs s₁, e))
    (hy : y = (resetFs s₂, e)) : SameFeed x y := by
  subst hx hy
  exact ⟨rfl, resetFs_agree s₁ s₂⟩

section

variable {s₁ s₂ : State} {held : List Byte} (b : Byte)

theorem feedByte_same_waitSync1 (h₁ : s₁.fs.phase = .waitSync1) (h₂ : s₂.fs.phase = .waitSync1)
    (hab : s₁.fs.Agree s₂.fs) : SameFeed (feedByte b s₁) (feedByte b s₂) := by
  by_cases hb : b = 0x5A
  · subst hb
    obtain ⟨t, ht, hheld⟩ := feedByte_sync1 h₁
    obtain ⟨u, hu, hheld'⟩ := feedByte_sync1 h₂
    exact sameFeed_of_holds ht hheld hu hheld' nofun
  · rw [feedByte_waitSync1 b h₁, feedByte_waitSync1 b h₂, feedWaitSync1_other hb, feedWaitSync1_other hb]
    exact ⟨rfl, hab⟩

theorem feedByte_same_waitSync2 (h₁ : s₁.fs.Holds .waitSync2 [0x5A]) (h₂ : s₂.fs.Holds .waitSync2 [0x5A]) :
    SameFeed (feedByte b s₁) (feedByte b s₂) := by
  by_cases hb : b = 0xA5
  · subst hb
    obtain ⟨t, ht, hheld⟩ := feedByte_sync2 h₁
    obtain ⟨u, hu, hheld'⟩ := feedByte_sync2 h₂
    exact sameFeed_of_holds ht hheld hu hheld' nofun
  · have hother {s : State} (h : s.fs.phase = .waitSync2) : feedByte b s = (resetFs s, .none) :=
      (feedByte_waitSync2 b h).trans (feedWaitSync2_other hb s)
    exact sameFeed_of_resetFs (hother h₁.phase) (hother h₂.phase)

/-- The sixth header byte, after a length outside rule R114's limits. -/
theorem feedByte_headerEnd_reject {s : State} (h : s.fs.Holds .readHeader held) (hl : held.length = 5)
    (hbad : (le16 held 2).toNat = 0 ∨ 507 ≤ (le16 held 2).toNat) : feedByte b s = (resetFs s, .none) := by
  have hc : s.fs.count.toNat = 5 := h.count.trans hl
  have hlen : le16 (s.fs.push b).bytes 2 = le16 held 2 := by
    rw [le16_push s.fs b (by omega), ← le16_bytes, h.le16_eq (by omega)]
  exact (feedByte_readHeader b h.phase).trans (feedReadHeader_reject b hc hlen hbad)

theorem feedByte_same_readHeader (h₁ : s₁.fs.Holds .readHeader held) (h₂ : s₂.fs.Holds .readHeader held)
    (hl : held.length ≤ 5) : SameFeed (feedByte b s₁) (feedByte b s₂) := by
  rcases hl.lt_or_eq with hlt | heq
  · obtain ⟨t, ht, hheld⟩ := feedByte_header h₁ hlt b
    obtain ⟨u, hu, hheld'⟩ := feedByte_header h₂ hlt b
    exact sameFeed_of_holds ht hheld hu hheld' nofun
  · by_cases hbad : (le16 held 2).toNat = 0 ∨ 507 ≤ (le16 held 2).toNat
    · exact sameFeed_of_resetFs (feedByte_headerEnd_reject b h₁ heq hbad)
        (feedByte_headerEnd_reject b h₂ heq hbad)
    · obtain ⟨t, ht, hheld, hlen⟩ := feedByte_headerEnd h₁ heq (by omega) (by omega) b
      obtain ⟨u, hu, hheld', hlen'⟩ := feedByte_headerEnd h₂ heq (by omega) (by omega) b
      exact sameFeed_of_holds ht hheld hu hheld' fun _ => hlen.trans hlen'.symm

theorem feedByte_payload_store {s : State} (h : s.fs.Holds .readPayload held)
    (hmax : held.length < constants.maxFrame) (hl : held.length + 1 < 6 + s.fs.len.toNat) :
    feedByte b s = ({ s with fs := s.fs.push b }, .none) :=
  (feedByte_readPayload b h.phase).trans
    (feedReadPayload_store b (h.count ▸ hmax) (by rw [h.count]; exact hl))

theorem feedByte_payload_last {s : State} (h : s.fs.Holds .readPayload held)
    (hmax : held.length < constants.maxFrame) (hl : held.length + 1 = 6 + s.fs.len.toNat) :
    feedByte b s = (resetFs s, frameEvent (held ++ [b])) :=
  (feedByte_readPayload b h.phase).trans (feedReadPayload_last b h hl hmax)

theorem feedByte_same_readPayload (h₁ : s₁.fs.Holds .readPayload held) (h₂ : s₂.fs.Holds .readPayload held)
    (hlen : s₁.fs.len = s₂.fs.len) (hmax : held.length < constants.maxFrame)
    (hl : held.length + 1 ≤ 6 + s₁.fs.len.toNat) : SameFeed (feedByte b s₁) (feedByte b s₂) := by
  rcases hl.lt_or_eq with hlt | heq
  · exact sameFeed_of_holds (feedByte_payload_store b h₁ hmax hlt) (h₁.push b hmax)
      (feedByte_payload_store b h₂ hmax (hlen ▸ hlt)) (h₂.push b hmax) fun _ => hlen
  · exact sameFeed_of_resetFs (feedByte_payload_last b h₁ hmax heq)
      (feedByte_payload_last b h₂ hmax (hlen ▸ heq))

end

/-- In each phase a byte is judged on the bytes held, and in `READ_PAYLOAD` on `FS.len`. -/
theorem feedByte_same (b : Byte) {s₁ s₂ : State} (h : s₁.fs.Inv) (hab : s₁.fs.Agree s₂.fs) :
    SameFeed (feedByte b s₁) (feedByte b s₂) := by
  have hmax := count_le_of_inv h
  obtain ⟨hphase, -, hlen, -⟩ := id hab
  cases hp : s₁.fs.phase with
  | waitSync1 => exact feedByte_same_waitSync1 b hp (hphase ▸ hp) hab
  | waitSync2 =>
    have hheld := holds_take hp hmax
    obtain ⟨hc, h0⟩ := (inv_waitSync2 hp).1 h
    have hone : s₁.fs.bytes.take s₁.fs.count.toNat = [0x5A] := by
      rw [hc, ← h0]
      simp [List.take_one, Fs.bytes, List.head?_eq_getElem?]
    rw [hone] at hheld
    exact feedByte_same_waitSync2 b hheld (hheld.of_agree hab)
  | readHeader =>
    have hheld := holds_take hp hmax
    obtain ⟨-, hc, -⟩ := (inv_readHeader hp).1 h
    exact feedByte_same_readHeader b hheld (hheld.of_agree hab) (by rwa [length_take_bytes hmax])
  | readPayload =>
    have hheld := holds_take hp hmax
    obtain ⟨-, hc, -⟩ := (inv_readPayload hp).1 h
    exact feedByte_same_readPayload b hheld (hheld.of_agree hab) (hlen hp)
      (by rw [length_take_bytes hmax, maxFrame_eq]; omega) (by rw [length_take_bytes hmax]; omega)

theorem feedBytes_same (bs : List Byte) {s₁ s₂ : State} (h : s₁.fs.Inv) (hab : s₁.fs.Agree s₂.fs) :
    (feedBytes bs s₁).2 = (feedBytes bs s₂).2 ∧ (feedBytes bs s₁).1.fs.Agree (feedBytes bs s₂).1.fs := by
  induction bs generalizing s₁ s₂ with
  | nil => exact ⟨rfl, hab⟩
  | cons b bs ih =>
    obtain ⟨hevent, hagree⟩ := feedByte_same b h hab
    obtain ⟨hevents, hrest⟩ := ih (feedByte_inv b h) hagree
    refine ⟨?_, hrest⟩
    rw [feedBytes_cons_events, feedBytes_cons_events, hevent, hevents]

/-- Settles O9: a pure operation reads no `FS`, and a byte is judged on what two agreeing synchronizers both
hold. -/
theorem undefinedBytesAreNeverRead : Obligations.UndefinedBytesAreNeverRead := by
  intro i s₁ s₂ h hab
  cases hu : i.usesFs with
  | false =>
    obtain ⟨a, ha⟩ := pure_exec_eq_next_withAnswer hu
    exact ⟨_, _, a, ha s₁, ha s₂, rfl, rfl, hab⟩
  | true =>
    cases i with
    | frmFeed b =>
      obtain ⟨hevent, hagree⟩ := feedByte_same b h hab
      exact ⟨_, _, _, exec_frmFeed b s₁, exec_frmFeed b s₂, rfl, by rw [hevent]; rfl, hagree⟩
    | frmFeedBatch bs =>
      obtain ⟨hevents, hagree⟩ := feedBytes_same bs h hab
      exact ⟨_, _, _, exec_frmFeedBatch bs s₁, exec_frmFeedBatch bs s₂, rfl, by rw [hevents]; rfl, hagree⟩
    | frmReset => exact ⟨_, _, _, exec_frmReset s₁, exec_frmReset s₂, rfl, rfl, resetFs_agree s₁ s₂⟩
    | _ => cases hu

/-! Rules R115, R121 and R247: the payload's bytes, and what an event leaves behind. -/

theorem byteAt_append_left {as : List Byte} (bs : List Byte) {i : Nat} (h : i < as.length) :
    byteAt (as ++ bs) i = byteAt as i := by
  rw [byteAt, byteAt, List.getD_eq_getElem?_getD, List.getD_eq_getElem?_getD, List.getElem?_append_left h]

/-- Settles O24: the last byte is judged on the bytes held before it and itself. -/
theorem feedInReadPayload : Obligations.FeedInReadPayload := by
  intro s b h hp held payload received
  have hmax := count_le_of_inv h
  have hheld := holds_take hp hmax
  have hlength := length_take_bytes hmax
  have hroom : (s.fs.bytes.take s.fs.count.toNat).length < constants.maxFrame := by
    rw [hlength, maxFrame_eq]
    omega
  have hsix : 6 ≤ (s.fs.bytes.take s.fs.count.toNat).length := ((inv_readPayload hp).1 h).1.trans hlength.ge
  refine ⟨fun hmore => ?_, fun hlast => ?_⟩
  · rw [exec_frmFeed, feedByte_payload_store b hheld hroom (by omega), push_eq]
  · have hreceived : le16 held 4 = received := by
      have hbyte {i : Nat} (hi : i < 6) : byteAt held i = s.fs.buf[i]'(by rw [maxFrame_eq]; omega) := by
        rw [← byteAt_bytes, hheld.byteAt_eq (hi.trans_le hsix)]
        exact byteAt_append_left [b] (hi.trans_le hsix)
      rw [le16, hbyte (by omega), hbyte (by omega)]
    refine ⟨(resetFs s).fs, (resetFs s).draws, _, exec_crc16 _ _ s, ?_, resetFs_phase s, resetFs_count s⟩
    rw [exec_frmFeed, feedByte_payload_last b hheld hroom (by omega), ← recordGate_eq_decide, ← hreceived]
    rfl

/-- An event is the end of a frame, which resets. -/
theorem feedByte_event_resets {b : Byte} {s : State} (h : (feedByte b s).2 ≠ .none) :
    s.fs.phase = .readPayload ∧ (feedByte b s).1 = resetFs s := by
  have hp : s.fs.phase = .readPayload := by
    by_contra hp
    exact h (feedByte_event_eq_none b hp)
  rw [feedByte_readPayload b hp] at h ⊢
  refine ⟨hp, ?_⟩
  simp only [feedReadPayload] at h ⊢
  split at h
  · next hend => rw [if_pos hend]
  · exact absurd rfl h

theorem feedByte_eq_with (b : Byte) (s : State) :
    ∃ fs draws, (feedByte b s).1 = { s with fs := fs, draws := draws } := by
  rcases feedByte_cases b s with h | h | ⟨fs, h⟩
  · exact ⟨s.fs, s.draws, h⟩
  · exact ⟨(resetFs s).fs, (resetFs s).draws, h⟩
  · exact ⟨fs, s.draws, h⟩

/-- Settles O25. -/
theorem feedAlwaysEndsWithOk : Obligations.FeedAlwaysEndsWithOk := by
  intro s b
  obtain ⟨fs, draws, hs⟩ := feedByte_eq_with b s
  refine ⟨fs, draws, (feedByte b s).2, ?_, fun he => ?_⟩
  · rw [exec_frmFeed, hs]
  · obtain ⟨hp, hreset⟩ := feedByte_event_resets he
    have hfs : fs = (resetFs s).fs := congrArg State.fs (hs.symm.trans hreset)
    exact ⟨hp, hfs ▸ resetFs_phase s, hfs ▸ resetFs_count s⟩

end Sys2Proof.Machine

/-! The checksum tells two sequences apart that differ in one byte (rules R100, R101): every shift, and with it
every byte, takes different values of the checksum to different values. With it, what a corrupted frame gives. -/

namespace Sys2Proof.Machine

/-- The polynomial is odd, so a shift's lowest bit is the bit it shifted out. -/
theorem crcShift_getLsbD_zero (c : U16) : (crcShift c).getLsbD 0 = c.msb := by
  unfold crcShift
  split
  · next h => rw [BitVec.getLsbD_xor, h]; simp [constants]
  · next h => simpa using h

theorem crcShift_injective : Function.Injective crcShift := by
  intro c c' h
  have hmsb : c.msb = c'.msb := by rw [← crcShift_getLsbD_zero, h, crcShift_getLsbD_zero]
  have hshift : c <<< 1 = c' <<< 1 := by
    unfold crcShift at h
    rw [← hmsb] at h
    split at h
    · exact (BitVec.xor_left_inj _).1 h
    · exact h
  have htop : 0x8000 ≤ c.toNat ↔ 0x8000 ≤ c'.toNat := by
    simpa only [BitVec.msb_eq_decide, decide_eq_decide] using hmsb
  have hrest : c.toNat * 2 % 2 ^ 16 = c'.toNat * 2 % 2 ^ 16 := by
    simpa only [BitVec.toNat_shiftLeft, Nat.shiftLeft_eq] using congrArg BitVec.toNat hshift
  apply BitVec.eq_of_toNat_eq
  omega

theorem crcByte_injective (c : U16) : Function.Injective (crcByte c) := by
  intro b b' h
  have hhigh := (BitVec.xor_right_inj _).1 (crcShift_injective.iterate 8 h)
  rw [zeroExtend_shiftLeft_eight, zeroExtend_shiftLeft_eight, ← BitVec.toNat_inj, BitVec.toNat_ofNat,
    BitVec.toNat_ofNat] at hhigh
  apply BitVec.eq_of_toNat_eq
  omega

theorem crcByte_seed_injective (b : Byte) : Function.Injective fun c => crcByte c b :=
  fun _ _ h => (BitVec.xor_left_inj _).1 (crcShift_injective.iterate 8 h)

theorem crc16_seed_injective (bytes : List Byte) : Function.Injective fun c => crc16 c bytes := by
  induction bytes with
  | nil => exact fun _ _ h => h
  | cons b bytes ih => exact ih.comp (crcByte_seed_injective b)

theorem crc16_ne_of_byte_ne (seed : U16) (before after : List Byte) {b b' : Byte} (h : b ≠ b') :
    crc16 seed (before ++ b :: after) ≠ crc16 seed (before ++ b' :: after) := by
  rw [crc16_append, crc16_append, crc16_cons, crc16_cons]
  exact (crc16_seed_injective after).ne ((crcByte_injective _).ne h)

/-- Settles O20: the two running values part at the changed byte and stay apart. -/
theorem crcDetectsAChangedByte : Obligations.CrcDetectsAChangedByte := by
  intro s seed before after b b' h
  exact ⟨_, _, exec_crc16 _ _ s, exec_crc16 _ _ s, crc16_ne_of_byte_ne seed before after h⟩

/-! A corrupted frame (rules R103, R115). -/

theorem frameCrc_set_ne (header : List Byte) {payload : List Byte} {k : Nat} {b : Byte}
    (hk : k < payload.length) (hb : payload[k]? ≠ some b) :
    frameCrc header (payload.set k b) ≠ frameCrc header payload := by
  have hne : b ≠ payload[k] := fun h => hb (by rw [List.getElem?_eq_getElem hk, h])
  have hold : payload = payload.take k ++ payload[k] :: payload.drop (k + 1) := by
    rw [List.getElem_cons_drop, List.take_append_drop]
  have hnew : payload.set k b = payload.take k ++ b :: payload.drop (k + 1) := by
    rw [List.set_eq_take_append_cons_drop, if_pos hk]
  rw [frameCrc, frameCrc, hnew]
  conv_rhs => rw [hold]
  rw [← List.append_assoc, ← List.append_assoc]
  exact crc16_ne_of_byte_ne _ _ _ hne

/-- A frame's event by the checksum its header carries. -/
theorem frameEvent_eq (a b c d : Byte) (w : U16) (payload : List Byte) :
    frameEvent ([a, b, c, d] ++ bytesLe w 2 ++ payload) =
      if frameCrc [a, b, c, d] payload = w then .frame payload (recordGate payload)
      else .crcError (frameCrc [a, b, c, d] payload) w := by
  have hcrc : le16 ([a, b, c, d] ++ bytesLe w 2 ++ payload) 4 = w := le16_four_bytesLe a b c d w payload
  rw [frameEvent, hcrc]
  rfl

theorem frameEvent_ne_none (frame : List Byte) : frameEvent frame ≠ .none := by
  unfold frameEvent
  split <;> exact nofun

/-- A whole frame of the declared length from `WAIT_SYNC1` gives its event and resets. -/
theorem feedBytes_whole_frame {s : State} (hp : s.fs.phase = .waitSync1) {l0 l1 : Byte} (w : U16)
    {payload : List Byte} (hl : (l1 ++ l0).toNat = payload.length) (h1 : 1 ≤ payload.length)
    (h2 : payload.length ≤ 506) :
    ∃ t, t.pending = s.pending ∧ feedBytes ([0x5A, 0xA5, l0, l1] ++ bytesLe w 2 ++ payload) s =
      (resetFs t, [frameEvent ([0x5A, 0xA5, l0, l1] ++ bytesLe w 2 ++ payload)]) := by
  obtain ⟨init, b, rfl⟩ : ∃ init b, payload = init ++ [b] :=
    payload.eq_nil_or_concat'.resolve_left (List.length_pos_iff.1 h1)
  rw [List.length_append, List.length_singleton] at hl h2
  obtain ⟨t, ht, hb⟩ := feedBytes_frame hp (w.extractLsb' 0 8) (w.extractLsb' 8 8) hl h2 b
  have hheader : [0x5A, 0xA5, l0, l1] ++ bytesLe w 2 =
      [0x5A, 0xA5, l0, l1, w.extractLsb' 0 8, w.extractLsb' 8 8] := by rw [bytesLe_two]; rfl
  rw [hheader]
  refine ⟨t, ?_, ?_⟩
  · rw [← feedBytes_pending (_ ++ init) s, ht]
  · rw [← List.append_assoc, feedBytes_concat ht hb, if_neg (frameEvent_ne_none _), List.nil_append]

/-- Settles O30: the header, and with it the checksum sent, is the encoder's, and the checksum computed is not. -/
theorem corruptedPayloadByteIsRejected : Obligations.CorruptedPayloadByteIsRejected := by
  intro s payload k b hp h1 h2 hk hb
  have hset : (frameOf payload).set (6 + k) b =
      headerOf payload ++ bytesLe (frameCrc (headerOf payload) payload) 2 ++ payload.set k b := by
    rw [frameOf_eq, List.set_append_right _ _ (Nat.le_add_right 6 k)]
    congr 2
    exact Nat.add_sub_cancel_left 6 k
  have hevent := (frameEvent_eq _ _ _ _ (frameCrc (headerOf payload) payload) (payload.set k b)).trans
    (if_neg (frameCrc_set_ne (headerOf payload) hk hb))
  have hlength : (payload.set k b).length = payload.length := List.length_set
  obtain ⟨t, hpending, ht⟩ := feedBytes_whole_frame hp (frameCrc (headerOf payload) payload)
    ((headerLen_toNat h2).trans hlength.symm) (hlength ▸ h1) (hlength ▸ h2)
  rw [hevent] at ht
  refine ⟨frameOf payload, (resetFs t).fs, (resetFs t).draws,
    frameCrc (headerOf payload) (payload.set k b), frameCrc (headerOf payload) payload,
    exec_frmEncode_ok s h1 h2, ?_, resetFs_phase t, resetFs_count t⟩
  rw [hset, ← hpending]
  exact (exec_frmFeedBatch_of_feedBytes ht).trans rfl

end Sys2Proof.Machine

/-! Rules R218 to R220 and R223: the feedback decoder of the extended dialect and the fault word. -/

namespace Sys2Proof.Machine

theorem exec_extDecFeedback (id : U32) (data : List Byte) (s : State) :
    exec (.extDecFeedback id data) s = finish (decFeedback id data) s := rfl

theorem exec_faultMatch (word : U32) (s : State) : exec (.faultMatch word) s = .next (s.answering
    (.faultMatch word (word &&& faultMask) (BitVec.ofNat 8 (popcount (word &&& faultMask))))) := rfl

theorem inboundFaultBits_eq_ofNat (id : U32) : inboundFaultBits id = BitVec.ofNat 6 (id.toNat / 2 ^ 16) := by
  rw [inboundFaultBits, extractLsb'_eq_ofNat_div, extAux_eq_ofNat]
  apply BitVec.eq_of_toNat_eq
  simp only [BitVec.toNat_ofNat]
  omega

theorem inboundModeStatus_eq_ofNat (id : U32) : inboundModeStatus id = BitVec.ofNat 2 (id.toNat / 2 ^ 22) := by
  rw [inboundModeStatus, extractLsb'_eq_ofNat_div, extAux_eq_ofNat]
  apply BitVec.eq_of_toNat_eq
  simp only [BitVec.toNat_ofNat]
  omega

theorem decFeedback_lengthError (id : U32) {data : List Byte} (h : data.length ≠ 8) :
    decFeedback id data = .error (.length data.length) :=
  if_pos h

/-- The version reply is told by its first three bytes (rule R218). -/
theorem decFeedback_eq (id : U32) (b0 b1 b2 b3 b4 b5 b6 b7 : Byte) :
    decFeedback id [b0, b1, b2, b3, b4, b5, b6, b7] =
      if b0 = 0x00 ∧ b1 = 0xC4 ∧ b2 = 0x56 then
        .ok (.extVersion (inboundAddress id) (inboundFaultBits id) (inboundModeStatus id) b3 b4 b5 b6)
      else .ok (feedback16 extFbLayout id [b0, b1, b2, b3, b4, b5, b6, b7]) := by
  have hreply : slice [b0, b1, b2, b3, b4, b5, b6, b7] 0 constants.versionReply.length =
      constants.versionReply ↔ b0 = 0x00 ∧ b1 = 0xC4 ∧ b2 = 0x56 := by
    change [b0, b1, b2] = [0x00, 0xC4, 0x56] ↔ _
    simp only [List.cons.injEq, and_true]
  simp only [← hreply]
  rfl

/-- The three codes and the temperature of a feedback payload in the default layout (rule R220). -/
theorem feedback16_eq (id : U32) (b0 b1 b2 b3 b4 b5 b6 b7 : Byte) :
    feedback16 extFbLayout id [b0, b1, b2, b3, b4, b5, b6, b7] =
      .extFeedback (inboundAddress id) (inboundFaultBits id) (inboundModeStatus id)
        (decodeIn pos16 (BitVec.ofNat 32 (b0.toNat * 256 + b1.toNat)))
        (decodeIn vel16 (BitVec.ofNat 32 (b2.toNat * 256 + b3.toNat)))
        (decodeIn tq16 (BitVec.ofNat 32 (b4.toNat * 256 + b5.toNat)))
        (tenths (BitVec.ofNat 16 (b6.toNat * 256 + b7.toNat))) := by
  have hfields : feedback16 extFbLayout id [b0, b1, b2, b3, b4, b5, b6, b7] =
      .extFeedback (inboundAddress id) (inboundFaultBits id) (inboundModeStatus id)
        (decodeIn pos16 ((b0 ++ b1 : U16).zeroExtend 32)) (decodeIn vel16 ((b2 ++ b3 : U16).zeroExtend 32))
        (decodeIn tq16 ((b4 ++ b5 : U16).zeroExtend 32)) (tenths (b6 ++ b7)) := rfl
  simp only [hfields, append_two_bytes]
  rw [zeroExtend_ofNat (two_bytes_lt b0 b1) (by norm_num), zeroExtend_ofNat (two_bytes_lt b2 b3) (by norm_num),
    zeroExtend_ofNat (two_bytes_lt b4 b5) (by norm_num)]

/-- Settles O56: the codes are within their domains' widths, and the identifier's fields are aux16's. -/
theorem extendedFeedbackDecode : Obligations.ExtendedFeedbackDecode := by
  refine ⟨fun s id b0 b1 b2 b3 b4 b5 b6 b7 => ?_, fun s id data h => ?_, rfl, rfl, rfl, rfl⟩
  · intro data address faultBits modeStatus
    rw [exec_extDecFeedback, decFeedback_eq, feedback16_eq, inboundAddress_eq_ofNat, inboundFaultBits_eq_ofNat,
      inboundModeStatus_eq_ofNat]
    refine ⟨fun hversion => by rw [if_pos hversion, finish_ok], fun hother => ?_⟩
    obtain ⟨t, ht, hnearest⟩ := tenths_nearest (BitVec.ofNat 16 (b6.toNat * 256 + b7.toNat))
    refine ⟨_, _, _, _, t, exec_qDecode_domain (d := pos16) (by decide) (two_bytes_lt b0 b1) s,
      exec_qDecode_domain (d := vel16) (by decide) (two_bytes_lt b2 b3) s,
      exec_qDecode_domain (d := tq16) (by decide) (two_bytes_lt b4 b5) s, ht, hnearest, ?_, ?_⟩
    · rintro ⟨rfl, rfl⟩
      exact tenths_zero
    · rw [if_neg hother, finish_ok]
  · rw [exec_extDecFeedback, decFeedback_lengthError id h, finish_error]

/-- The mask's bits are the named positions (rule R223). -/
theorem faultMask_getLsbD : ∀ k < 32, faultMask.getLsbD k = decide (k ∈ [0, 1, 2, 3, 4, 5, 7, 8, 9, 14, 16]) := by
  decide

/-- Settles O57: the mask has its bits at the eleven positions, and the count is that of the bits let through. -/
theorem faultMatchKeepsTheNamedBits : Obligations.FaultMatchKeepsTheNamedBits := by
  intro s word
  obtain ⟨-, hcount, hle⟩ := faultMatch_wf word
  refine ⟨_, _, exec_faultMatch word s, fun k hk => ?_, ?_, hle⟩
  · rw [BitVec.getLsbD_and, faultMask_getLsbD k hk]
  · rw [hcount, popcount, List.countP_eq_length_filter]

end Sys2Proof.Machine

/-! Rule R71: the host's chains. An operation does not read the answer that the one before it in the chain left,
so each link is the operation on the state the chain started from. -/

namespace Sys2Proof.Machine

theorem chain_answering (s : State) (r : Result) (next : Result → State → Host.Outcome State Fault Refusal) :
    chain (.next (s.answering r)) next = next r (s.answering r) := rfl

theorem chain_failing (s : State) (e : Error) (next : Result → State → Host.Outcome State Fault Refusal) :
    chain (.next (s.failing e)) next = .next (s.failing e) := rfl

/-- The next link of a chain. -/
theorem exec_answering (i : Instr) (s : State) (r : Result) : exec i (s.answering r) = exec i s :=
  exec_withAnswer i s (some (.ok r))

/-! The builders' payloads. -/

/-- The result ports of a pure operation. -/
def Result.ofFs : Result → Bool
  | .empty => true
  | .event _ => true
  | .events _ => true
  | _ => false

/-- Result ports that the synchronizer's operations do not have come from a pure operation, of rule R61's
sizes. -/
theorem wf_of_exec_answering {i : Instr} {s : State} {r : Result} (h : exec i s = .next (s.answering r))
    (hr : r.ofFs = false) : r.Wf := by
  cases hu : i.usesFs with
  | false =>
    obtain ⟨x, hexec, hx⟩ := pure_answersWf i hu
    exact hx r (finish_eq_next_answering.1 (hexec s ▸ h))
  | true =>
    have hport {r' : Result} {t : State} (h' : exec i s = .next (t.answering r')) : r' = r := by
      have := congrArg State.answer (Host.Outcome.next.inj (h'.symm.trans h))
      rw [answering_answer, answering_answer] at this
      exact Answer.ok.inj (Option.some.inj this)
    cases i with
    | frmFeed b => cases hport (exec_frmFeed b s); cases hr
    | frmFeedBatch bs => cases hport (exec_frmFeedBatch bs s); cases hr
    | frmReset => cases hport (exec_frmReset s); cases hr
    | _ => cases hu

/-! The sending chains. -/

theorem sendStd_eq_frame {s : State} {mode : Byte} (address : Byte) {cmd : Instr} {d : List Byte}
    (hmode : mode.toNat < 8) (hcmd : exec cmd s = .next (s.answering (.data d))) (h8 : d.length = 8) :
    sendStd mode address cmd s = .next (s.answering (.frame
      (canFrameOf 0x08 (BitVec.ofNat 32 (mode.toNat * 256 + address.toNat)) d))) := by
  have hid : (BitVec.ofNat 32 (mode.toNat * 256 + address.toNat)).toNat ≤ 0x7FF := by
    rw [BitVec.toNat_ofNat]
    omega
  rw [sendStd, exec_idMakeStd, idMakeStd_ok address hmode, stdId_eq_ofNat, finish_ok, chain_answering]
  simp only [exec_answering, hcmd, chain_answering]
  rw [exec_canBuildStd, canBuild_ok h8 hid, finish_ok]

theorem sendExt_eq_frame {s : State} {cmd : Instr} {id : U32} {d : List Byte}
    (hcmd : exec cmd s = .next (s.answering (.idData id d))) (hid : id.toNat ≤ 0x1FFFFFFF)
    (h8 : d.length = 8) : sendExt cmd s = .next (s.answering (.frame (canFrameOf 0x88 id d))) := by
  rw [sendExt, hcmd, chain_answering]
  simp only [exec_answering]
  rw [exec_canBuildExt, canBuild_ok h8 hid, finish_ok]

/-- Settles O58: a builder's payload has the eight bytes a frame takes. -/
theorem sendChainsBuildTheFrame : Obligations.SendChainsBuildTheFrame := by
  refine ⟨fun s mode address cmd d hmode hcmd => ?_, fun s cmd id d hcmd => ?_,
    fun s mode address cmd hmode => ?_, fun s cmd e hcmd => ?_⟩
  · have h8 : d.length = 8 := wf_of_exec_answering hcmd rfl
    refine ⟨_, sendStd_eq_frame address hmode hcmd h8, ?_⟩
    rw [exec_canParse, canParse_canFrameOf _ _ h8, finish_ok]
  · obtain ⟨hid, h8⟩ : id.toNat < 2 ^ 29 ∧ d.length = 8 := wf_of_exec_answering hcmd rfl
    refine ⟨_, sendExt_eq_frame hcmd (Nat.le_of_lt_succ hid) h8, ?_⟩
    rw [exec_canParse, canParse_canFrameOf _ _ h8, finish_ok]
  · rw [sendStd, exec_idMakeStd, idMakeStd_rangeError address hmode, finish_error, chain_failing]
  · rw [sendExt, hcmd, chain_failing]

/-! The receiving chain. -/

theorem canParse_cons (info b1 b2 b3 b4 : Byte) {data : List Byte} (h8 : data.length = 8) :
    canParse (info :: b1 :: b2 :: b3 :: b4 :: data) = .ok (.canFrame info
      (BitVec.ofNat 32 (b1.toNat * 2 ^ 24 + b2.toNat * 2 ^ 16 + b3.toNat * 2 ^ 8 + b4.toNat)) data) := by
  have hdata : slice (info :: b1 :: b2 :: b3 :: b4 :: data) 5 13 = data :=
    List.take_of_length_le h8.le
  rw [canParse_ok (by simp [h8]), ← append_bytes_eq_ofNat, hdata]
  rfl

section

variable {frame data : List Byte} {info : Byte} {id : U32}
  (h : canParse frame = .ok (.canFrame info id data)) (s : State)

include h

/-- `RECV` of a frame that parses, by the kind of its info byte. -/
theorem recv_stdData (hkind : canClassify info = .stdData) : recv frame s = exec (.stdFbDecode data) s := by
  rw [recv, exec_canParse, h, finish_ok, chain_answering]
  simp only [exec_canClassify, answering_answering, chain_answering, hkind]
  exact exec_answering _ s _

theorem recv_extData (hkind : canClassify info = .extData) :
    recv frame s = decodeExt (extClassify id) id data (s.answering (.decoder (extClassify id))) := by
  rw [recv, exec_canParse, h, finish_ok, chain_answering]
  simp only [exec_canClassify, exec_extClassify, answering_answering, chain_answering, hkind]

theorem recv_ignore (hkind : canClassify info = .ignore) : recv frame s = exec (.canClassify info) s := by
  rw [recv, exec_canParse, h, finish_ok, chain_answering]
  simp only [exec_canClassify, answering_answering, chain_answering, hkind]

end

theorem decodeExt_answering {d : ExtDecoder} (hd : d ≠ .raw) (id : U32) (data : List Byte) (s : State)
    (r : Result) : decodeExt d id data (s.answering r) = decodeExt d id data s := by
  cases d with
  | deviceId => exact exec_answering (.extDecDeviceId id data) s r
  | feedback => exact exec_answering (.extDecFeedback id data) s r
  | paramRead => exact exec_answering (.extDecParamRead id data) s r
  | fault => exact exec_answering (.extDecFault data) s r
  | raw => exact absurd rfl hd

/-- The command type of an identifier read from its bytes (rules R41, R69). -/
theorem commandType_of_bytes (b1 b2 b3 b4 : Byte) :
    (BitVec.ofNat 32 (b1.toNat * 2 ^ 24 + b2.toNat * 2 ^ 16 + b3.toNat * 2 ^ 8 + b4.toNat)).toNat / 2 ^ 24 % 32 =
      b1.toNat % 32 := by
  rw [BitVec.toNat_ofNat]
  omega

/-- Settles O59: the kind goes by the info byte's top bits, and the decoder by the identifier's first byte. -/
theorem recvChoosesTheDecoder : Obligations.RecvChoosesTheDecoder := by
  intro s info b1 b2 b3 b4 data h8 frame id
  have htype : id.toNat / 2 ^ 24 % 32 = b1.toNat % 32 := commandType_of_bytes b1 b2 b3 b4
  have hparse : canParse frame = .ok (.canFrame info id data) := canParse_cons info b1 b2 b3 b4 h8
  have hkind := canClassify_eq info
  split
  · next h => exact recv_stdData hparse s (by rw [hkind, if_pos h])
  · next h =>
    have hdecoder := extClassify_eq id
    rw [htype] at hdecoder
    rw [recv_extData hparse s (by rw [hkind, h]; rfl)]
    split
    case h_6 h0 h2 h11 h15 h18 =>
      rw [if_neg h0, if_neg h2, if_neg h11, if_neg h15, if_neg h18] at hdecoder
      rw [exec_extClassify, hdecoder, decodeExt]
    all_goals
      next ht =>
        rw [hdecoder, ht]
        exact decodeExt_answering (by decide) id data s _
  · next h0 h2 => exact recv_ignore hparse s (by rw [hkind, if_neg h0, if_neg h2])

/-! Rule R147's example, and an operand above its sampled bound. -/

theorem pos16_roundTrip : quantEncode 0x408AFA5A 0xC1491EB8 0x41491EB8 16 = .ok (.code 44088) ∧
    quantDecode 44088 0xC1491EB8 0x41491EB8 16 = .ok (.value 0x408AF734) := by
  decide +kernel

theorem tq16_roundTrip : quantEncode 0x40040104 0xC1600000 0x41600000 16 = .ok (.code 37594) ∧
    quantDecode 37594 0xC1600000 0x41600000 16 = .ok (.value 0x4003FA00) := by
  decide +kernel

/-- Settles O41: in `TQ16` the operand `0x40040104` comes back as `0x4003FA00`, 1.0022 steps below. -/
theorem roundTripExceedsTheSampledBound : Obligations.RoundTripExceedsTheSampledBound := by
  refine ⟨fun s => ?_, 0x40040104, 0x4003FA00, 37594, _, _, rfl, rfl, by decide +kernel, by decide +kernel,
    fun s => ?_, by decide +kernel⟩
  · rw [exec_qEncode, exec_qDecode, pos16_roundTrip.1, pos16_roundTrip.2]
    exact ⟨finish_ok _ _, finish_ok _ _⟩
  · rw [exec_qEncode, exec_qDecode, tq16_roundTrip.1, tq16_roundTrip.2]
    exact ⟨finish_ok _ _, finish_ok _ _⟩

end Sys2Proof.Machine

/-! Rule R140 in full: every operation on finite data is one rounding of the exact result, and a rounding
overflows exactly from `2^128 - 2^103` on, half a unit above the largest number of the format. -/

namespace Sys2Proof.Machine

/-! Where a rounding overflows. -/

/-- A rounded quotient reaches an even number from a half below it on. -/
theorem le_roundHalfEven_iff {n d k : Nat} (hd : 0 < d) (hk : k % 2 = 0) :
    k ≤ roundHalfEven n d ↔ 2 * k * d ≤ 2 * n + d := by
  have hn : n / d * d + n % d = n := Nat.div_add_mod' n d
  have hr : n % d < d := Nat.mod_lt n hd
  have hcases := roundHalfEven_cases n d
  rw [Nat.mul_assoc]
  rcases lt_trichotomy k (n / d + 1) with h | h | h
  · have : k * d ≤ n / d * d := Nat.mul_le_mul_right d (Nat.le_of_lt_succ h)
    omega
  · have hsucc : k * d = n / d * d + d := by rw [h, Nat.succ_mul]
    have hodd : n / d % 2 = 1 := by omega
    unfold roundHalfEven
    simp only
    split_ifs <;> omega
  · have : (n / d + 2) * d ≤ k * d := Nat.mul_le_mul_right d h
    rw [Nat.add_mul] at this
    omega

/-- A normal significand has 24 bits at least. -/
theorem two_pow_le_roundHalfEven_excess {n d : Nat} (hd : 0 < d) (h : binary32.excess n d ≠ 0) :
    2 ^ 23 ≤ roundHalfEven n (d * 2 ^ binary32.excess n d) := by
  have hfloor : 2 ^ 23 ≤ n / (d * 2 ^ binary32.excess n d) :=
    (Nat.le_div_iff_mul_le (by positivity)).mpr (two_pow_excess_le hd h)
  rcases roundHalfEven_cases n (d * 2 ^ binary32.excess n d) with hq | hq <;> omega

/-- In units of the least positive value: an encoding of the infinities' or more is that of a number from
`2^128 - 2^103` on. -/
theorem infCode_le_iff (n : Nat) {d : Nat} (hd : 0 < d) :
    255 * 2 ^ 23 ≤ binary32.excess n d * 2 ^ 23 + roundHalfEven n (d * 2 ^ binary32.excess n d) ↔
      33554431 * 2 ^ 252 * d ≤ n := by
  have hq := roundHalfEven_excess_le n hd
  have hupper := lt_two_pow_excess n hd
  have hlower : binary32.excess n d ≠ 0 → _ := two_pow_excess_le (n := n) hd
  have hnormal := two_pow_le_roundHalfEven_excess (n := n) hd
  generalize binary32.excess n d = t at *
  rcases lt_trichotomy t 253 with ht | rfl | ht
  · have hpow : d * 2 ^ t ≤ d * 2 ^ 252 := by gcongr <;> omega
    omega
  · have heven := le_roundHalfEven_iff (n := n) (k := 2 ^ 24) (d := d * 2 ^ 253) (by positivity) (by norm_num)
    omega
  · have hpow : d * 2 ^ 254 ≤ d * 2 ^ t := by gcongr <;> omega
    have := hlower (by omega)
    have := hnormal (by omega)
    omega

theorem round_eq_inf (neg : Bool) {n d : Nat} (hd : 0 < d) (h : 33554431 * 2 ^ 252 * d ≤ n) :
    binary32.round neg n d = .inf neg :=
  if_pos ((infCode_le_iff n hd).mpr h)

theorem round_eq_fin_of_lt (neg : Bool) {n d : Nat} (hd : 0 < d) (h : n < 33554431 * 2 ^ 252 * d) :
    binary32.round neg n d =
      .fin neg (roundHalfEven n (d * 2 ^ binary32.excess n d) * 2 ^ binary32.excess n d) :=
  if_neg (mt (infCode_le_iff n hd).mp h.not_ge)

/-! A rounding depends on the number alone. -/

theorem roundHalfEven_mul_mul {k : Nat} (hk : 0 < k) (n d : Nat) :
    roundHalfEven (k * n) (k * d) = roundHalfEven n d := by
  have hlow : 2 * (k * (n % d)) < k * d ↔ 2 * (n % d) < d := by
    rw [Nat.mul_left_comm, Nat.mul_lt_mul_left hk]
  have hhigh : k * d < 2 * (k * (n % d)) ↔ d < 2 * (n % d) := by
    rw [Nat.mul_left_comm, Nat.mul_lt_mul_left hk]
  simp only [roundHalfEven, Nat.mul_div_mul_left n d hk, Nat.mul_mod_mul_left, hlow, hhigh]

theorem round_mul_mul (neg : Bool) {k : Nat} (hk : 0 < k) (n d : Nat) :
    binary32.round neg (k * n) (k * d) = binary32.round neg n d := by
  have hexcess : binary32.excess (k * n) (k * d) = binary32.excess n d := by
    rw [Format.excess, Format.excess, Nat.mul_div_mul_left n d hk]
  unfold Format.round
  simp only
  rw [hexcess, Nat.mul_assoc, roundHalfEven_mul_mul hk]

theorem round_congr (neg : Bool) {n d n' d' : Nat} (hd : 0 < d) (hd' : 0 < d') (h : n * d' = n' * d) :
    binary32.round neg n d = binary32.round neg n' d' := by
  rw [← round_mul_mul neg hd' n d, ← round_mul_mul neg hd n' d', Nat.mul_comm d' n, h, Nat.mul_comm n' d,
    Nat.mul_comm d' d]

/-- The datum `x` is the number `v` after one rounding. -/
def Fp.IsRounding (x : Fp) (v : ℚ) : Prop :=
  ∃ neg n d, 0 < d ∧ x = binary32.round neg n d ∧ (signed neg n : ℚ) / d / 2 ^ 149 = v

/-! Each operation on finite data is one rounding of the exact result. -/

theorem isRounding_round (neg : Bool) (n : Nat) {d : Nat} (hd : 0 < d) :
    (binary32.round neg n d).IsRounding ((signed neg n : ℚ) / d / 2 ^ 149) :=
  ⟨neg, n, d, hd, rfl, rfl⟩

theorem isRounding_sum {neg : Bool} {n : Nat} {z : ℤ} (h : signed neg n = z) :
    (binary32.round neg n 1).IsRounding ((z : ℚ) / 2 ^ 149) := by
  have hround := isRounding_round neg n one_pos
  rwa [h, Nat.cast_one, div_one] at hround

theorem add_isRounding {x y : Fp} {a b : ℚ} (hx : x.value binary32 = some a) (hy : y.value binary32 = some b) :
    (binary32.add x y).IsRounding (a + b) := by
  obtain ⟨s, m, rfl, rfl⟩ := value_eq_some.mp hx
  obtain ⟨t, n, rfl, rfl⟩ := value_eq_some.mp hy
  rw [← add_div, ← Int.cast_add]
  simp only [Format.add]
  split_ifs with hst hnm hmn
  · subst hst
    exact isRounding_sum (signed_add s m n)
  · exact isRounding_sum (signed_sub hst hnm.le)
  · rw [add_comm]
    exact isRounding_sum (signed_sub (Ne.symm hst) hmn.le)
  · obtain rfl : m = n := by omega
    rw [← round_zero false 1, ← signed_sub hst le_rfl, Nat.sub_self]
    exact isRounding_sum (by cases s <;> rfl)

theorem sub_isRounding {x y : Fp} {a b : ℚ} (hx : x.value binary32 = some a) (hy : y.value binary32 = some b) :
    (binary32.sub x y).IsRounding (a - b) := by
  rw [sub_eq_add_neg]
  exact add_isRounding hx (value_neg hy)

theorem mul_isRounding {x y : Fp} {a b : ℚ} (hx : x.value binary32 = some a) (hy : y.value binary32 = some b) :
    (binary32.mul x y).IsRounding (a * b) := by
  obtain ⟨s, m, rfl, rfl⟩ := value_eq_some.mp hx
  obtain ⟨t, n, rfl, rfl⟩ := value_eq_some.mp hy
  refine ⟨s ^^ t, m * n, 2 ^ binary32.unit, Nat.two_pow_pos _, rfl, ?_⟩
  rw [signed_xor_mul, binary32_unit, div_mul_div_comm, div_div, Nat.cast_pow, Nat.cast_ofNat, Int.cast_mul]

theorem div_isRounding {x y : Fp} {a b : ℚ} (hx : x.value binary32 = some a) (hy : y.value binary32 = some b)
    (hb : b ≠ 0) : (binary32.div x y).IsRounding (a / b) := by
  obtain ⟨s, m, rfl, rfl⟩ := value_eq_some.mp hx
  obtain ⟨t, n, rfl, rfl⟩ := value_eq_some.mp hy
  have hn : n ≠ 0 := by
    rintro rfl
    cases t <;> simp at hb
  refine ⟨s ^^ t, m * 2 ^ binary32.unit, n, Nat.pos_of_ne_zero hn, div_fin s t m hn, ?_⟩
  rw [signed_xor_div, signed_mul, Int.cast_mul, Int.cast_natCast, Nat.cast_pow, Nat.cast_ofNat,
    binary32_unit, div_right_comm, mul_div_cancel_right₀ _ (by positivity),
    div_div_div_cancel_right₀ (by positivity)]

/-! What a rounding gives. -/

theorem abs_signed (neg : Bool) (n : Nat) : |(signed neg n : ℚ)| = n := by
  cases neg <;> simp

namespace Fp.IsRounding

variable {x : Fp} {v : ℚ}

/-- The size of the rounded number, in units of the least positive value. -/
theorem exists_round (h : x.IsRounding v) : ∃ neg n d, 0 < d ∧ x = binary32.round neg n d ∧
    (signed neg n : ℚ) / d / 2 ^ 149 = v ∧ |v| = n / d / 2 ^ 149 := by
  obtain ⟨neg, n, d, hd, hx, hv⟩ := h
  refine ⟨neg, n, d, hd, hx, hv, ?_⟩
  rw [← hv, abs_div, abs_div, abs_signed, Nat.abs_cast, abs_of_pos (by positivity : (0 : ℚ) < 2 ^ 149)]

theorem nearest (h : x.IsRounding v) {r : ℚ} (hr : x.value binary32 = some r) : binary32.Nearest v r := by
  obtain ⟨neg, n, d, hd, rfl, rfl⟩ := h
  exact round_nearest hd hr

theorem limit_le_iff {n d : Nat} (hd : 0 < d) :
    (2 ^ 128 - 2 ^ 103 : ℚ) ≤ n / d / 2 ^ 149 ↔ 33554431 * 2 ^ 252 * d ≤ n := by
  have hd' : (0 : ℚ) < d := by exact_mod_cast hd
  rw [le_div_iff₀ (by positivity), le_div_iff₀ hd']
  have hcast : (2 ^ 128 - 2 ^ 103 : ℚ) * 2 ^ 149 * d = ((33554431 * 2 ^ 252 * d : Nat) : ℚ) := by
    push_cast
    norm_num
  rw [hcast, Nat.cast_le]

/-- Below the limit a rounding is finite, and a pattern holds it. -/
theorem exists_value (h : x.IsRounding v) (hv : |v| < 2 ^ 128 - 2 ^ 103) :
    ∃ r, x.value binary32 = some r ∧ ∀ nanBits, unpack32 (pack32 nanBits x) = x := by
  obtain ⟨neg, n, d, hd, rfl, -, hsize⟩ := h.exists_round
  have hn : n < 33554431 * 2 ^ 252 * d := by
    rwa [hsize, ← not_le, limit_le_iff hd, not_le] at hv
  have hcode := mt (infCode_le_iff n hd).mp hn.not_ge
  have hq := roundHalfEven_excess_le n hd
  rw [round_eq_fin_of_lt neg hd hn]
  refine ⟨_, value_fin _ _ _, fun nanBits => ?_⟩
  have hnormal : binary32.excess n d = 0 ∨ 2 ^ 23 ≤ roundHalfEven n (d * 2 ^ binary32.excess n d) :=
    or_iff_not_imp_left.mpr (two_pow_le_roundHalfEven_excess hd)
  obtain ⟨q', t', hq', hval, hcode', hnormal', -⟩ := exists_significand (binary32.excess n d) hq
  have := hnormal' hnormal
  rw [← hval]
  exact unpack32_pack32_normal nanBits neg hq' (by omega)

/-- From the limit on it is the infinity of the number's sign. -/
theorem eq_inf (h : x.IsRounding v) (hv : 2 ^ 128 - 2 ^ 103 ≤ |v|) : x = .inf (decide (v < 0)) := by
  obtain ⟨neg, n, d, hd, rfl, hsigned, hsize⟩ := h.exists_round
  have hn : 33554431 * 2 ^ 252 * d ≤ n := by rwa [hsize, limit_le_iff hd] at hv
  have hpos : (0 : ℚ) < n / d / 2 ^ 149 := hsize ▸ lt_of_lt_of_le (by norm_num) hv
  rw [round_eq_inf neg hd hn, ← hsigned, cast_signed]
  cases neg with
  | false => simpa [mul_div_assoc] using hpos.le
  | true => simpa [mul_div_assoc, neg_div] using hpos

theorem value_iff (h : x.IsRounding v) : |v| < 2 ^ 128 - 2 ^ 103 ↔ ∃ r, x.value binary32 = some r := by
  refine ⟨fun hv => (h.exists_value hv).imp fun _ hr => hr.1, fun ⟨r, hr⟩ => ?_⟩
  by_contra! hv
  rw [h.eq_inf hv] at hr
  cases hr

end Fp.IsRounding

/-- Settles O31: the four operations are roundings of the exact results, and a rounding is correct. -/
theorem arithmeticIsCorrectlyRounded : Obligations.ArithmeticIsCorrectlyRounded := by
  intro x y a b hx hy
  have hadd := add_isRounding hx hy
  have hsub := sub_isRounding hx hy
  have hmul := mul_isRounding hx hy
  have hdiv := div_isRounding hx hy
  exact ⟨fun _ => hadd.nearest, fun _ => hsub.nearest, fun _ => hmul.nearest, fun hb _ => (hdiv hb).nearest,
    hadd.value_iff, hsub.value_iff, hmul.value_iff, fun hb => (hdiv hb).value_iff⟩

end Sys2Proof.Machine

/-! Rounding as a function of the exact number: the data that are one rounding of the same number have the same
value, greater numbers have no smaller roundings, and the numbers of the format round to themselves. -/

namespace Sys2Proof.Machine

/-! The number a number is rounded to. -/

/-- The number `v` in lowest terms, rounded. -/
def roundQ (v : ℚ) : Fp :=
  binary32.round (decide (v < 0)) (v.num.natAbs * 2 ^ 149) v.den

/-- The number `v` rounds to, where it does not overflow. -/
def fl (v : ℚ) : ℚ :=
  ((roundQ v).value binary32).getD 0

theorem roundQ_isRounding (v : ℚ) : (roundQ v).IsRounding v := by
  have hnum : signed (decide (v < 0)) v.num.natAbs = v.num := by
    rcases lt_or_ge v 0 with hv | hv
    · have := Rat.num_neg.mpr hv
      rw [decide_eq_true hv, signed_true]
      omega
    · have := Rat.num_nonneg.mpr hv
      rw [decide_eq_false hv.not_gt, signed_false]
      omega
  refine ⟨_, _, _, v.pos, rfl, ?_⟩
  rw [signed_mul, hnum, Int.cast_mul, Int.cast_natCast, Nat.cast_pow, Nat.cast_ofNat, div_right_comm,
    mul_div_cancel_right₀ _ (by positivity), Rat.num_div_den]

/-- A number other than zero has the sign of its datum. -/
theorem sign_eq_decide {neg : Bool} {n d : Nat} {v : ℚ} (hd : 0 < d) (hn : n ≠ 0)
    (hv : (signed neg n : ℚ) / d / 2 ^ 149 = v) : neg = decide (v < 0) := by
  have hpos : (0 : ℚ) < n / d / 2 ^ 149 := by positivity
  rw [← hv, cast_signed]
  cases neg with
  | false => simpa [mul_div_assoc] using hpos.le
  | true => simpa [mul_div_assoc, neg_div] using hpos

/-- The error of a rounding in units of the least positive value. -/
theorem abs_round_sub {neg : Bool} {n d : Nat} {r : ℚ} (hd : 0 < d)
    (h : (binary32.round neg n d).value binary32 = some r) :
    |r - (signed neg n : ℚ) / d / 2 ^ 149| =
      |(roundHalfEven n (d * 2 ^ binary32.excess n d) * 2 ^ binary32.excess n d : Nat) - (n : ℚ) / d| / 2 ^ 149 := by
  have hlt : n < 33554431 * 2 ^ 252 * d := by
    by_contra! hover
    rw [round_eq_inf neg hd hover] at h
    cases h
  rw [round_eq_fin_of_lt neg hd hlt, value_fin, binary32_unit] at h
  obtain rfl := Option.some.inj h
  generalize roundHalfEven n (d * 2 ^ binary32.excess n d) * 2 ^ binary32.excess n d = m
  have hdiff : (signed neg m : ℚ) / 2 ^ 149 - signed neg n / d / 2 ^ 149 =
      (if neg then -1 else 1) * ((m - n / d) / 2 ^ 149) := by
    rw [cast_signed, cast_signed]
    ring
  have hsgn : |(if neg then -1 else 1 : ℚ)| = 1 := by cases neg <;> simp
  rw [hdiff, abs_mul, hsgn, one_mul, abs_div, abs_of_pos (by positivity : (0 : ℚ) < 2 ^ 149)]

/-- Half a unit of the last place. -/
theorem roundHalfEven_excess_error_half (n : Nat) {d : Nat} (hd : 0 < d) :
    |((roundHalfEven n (d * 2 ^ binary32.excess n d) * 2 ^ binary32.excess n d : Nat) : ℚ) - n / d| ≤
      2 ^ binary32.excess n d / 2 := by
  generalize binary32.excess n d = t
  have hd' : (0 : ℚ) < d := by exact_mod_cast hd
  have herr := roundHalfEven_error n (d := d * 2 ^ t) (by positivity)
  have hscale : ((roundHalfEven n (d * 2 ^ t) * 2 ^ t : Nat) : ℚ) - n / d =
      (roundHalfEven n (d * 2 ^ t) - n / (d * 2 ^ t : Nat)) * 2 ^ t := by
    push_cast
    field_simp
  rw [hscale, abs_mul, abs_of_pos (by positivity : (0 : ℚ) < 2 ^ t)]
  calc _ ≤ 1 / 2 * (2 : ℚ) ^ t := by gcongr
    _ = 2 ^ t / 2 := by ring

namespace Fp.IsRounding

variable {x y : Fp} {v : ℚ}

theorem value_eq (hx : x.IsRounding v) (hy : y.IsRounding v) : x.value binary32 = y.value binary32 := by
  obtain ⟨s, n, d, hd, rfl, hv, hsize⟩ := hx.exists_round
  obtain ⟨t, n', d', hd', rfl, hv', hsize'⟩ := hy.exists_round
  have hcross : n * d' = n' * d := by
    have hdq : (0 : ℚ) < d := by exact_mod_cast hd
    have hdq' : (0 : ℚ) < d' := by exact_mod_cast hd'
    have h := hsize.symm.trans hsize'
    rw [div_left_inj' (by positivity), div_eq_div_iff hdq.ne' hdq'.ne'] at h
    exact_mod_cast h
  by_cases hn : n = 0
  · obtain rfl : n' = 0 := by
      rw [hn, Nat.zero_mul] at hcross
      exact (Nat.mul_eq_zero.mp hcross.symm).resolve_right hd.ne'
    rw [hn, round_zero, round_zero, value_fin, value_fin]
    cases s <;> cases t <;> simp
  · have hn' : n' ≠ 0 := fun h0 => by
      rw [h0, Nat.zero_mul] at hcross
      exact hn ((Nat.mul_eq_zero.mp hcross).resolve_right hd'.ne')
    have hst : s = t := (sign_eq_decide hd hn hv).trans (sign_eq_decide hd' hn' hv').symm
    rw [hst, round_congr t hd hd' hcross]

theorem value_eq_fl (h : x.IsRounding v) (hv : |v| < 2 ^ 128 - 2 ^ 103) : x.value binary32 = some (fl v) := by
  obtain ⟨r, hr, -⟩ := (roundQ_isRounding v).exists_value hv
  rw [h.value_eq (roundQ_isRounding v), fl, hr, Option.getD_some]

theorem value_eq_none (h : x.IsRounding v) (hv : 2 ^ 128 - 2 ^ 103 ≤ |v|) : x.value binary32 = none := by
  rw [h.eq_inf hv]
  rfl

/-- The error of a rounding, in general and below `2^16`. -/
theorem error (h : x.IsRounding v) {r : ℚ} (hr : x.value binary32 = some r) :
    |r - v| ≤ |v| / 2 ^ 24 + 1 / 2 ^ 150 := by
  obtain ⟨neg, n, d, hd, rfl, hv, hsize⟩ := h.exists_round
  have herr := roundHalfEven_excess_error n hd
  rw [← hv, abs_round_sub hd hr, hv, hsize, div_le_iff₀ (by positivity)]
  linarith

theorem error_of_lt (h : x.IsRounding v) {r : ℚ} (hr : x.value binary32 = some r) (hv : |v| < 2 ^ 16) :
    |r - v| ≤ 1 / 2 ^ 9 := by
  obtain ⟨neg, n, d, hd, rfl, hv', hsize⟩ := h.exists_round
  have hd' : (0 : ℚ) < d := by exact_mod_cast hd
  have hn : n < 2 ^ (24 + 141) * d := by
    rw [hsize, div_lt_iff₀ (by positivity), div_lt_iff₀ hd'] at hv
    exact_mod_cast (by rw [pow_add]; linarith : (n : ℚ) < 2 ^ (24 + 141) * d)
  have hpow : (2 : ℚ) ^ binary32.excess n d ≤ 2 ^ 141 :=
    pow_le_pow_right₀ one_le_two (excess_le hd hn)
  rw [← hv', abs_round_sub hd hr, div_le_iff₀ (by positivity)]
  calc _ ≤ (2 : ℚ) ^ binary32.excess n d / 2 := roundHalfEven_excess_error_half n hd
    _ ≤ 1 / 2 ^ 9 * 2 ^ 149 := by linarith

end Fp.IsRounding

theorem fl_nearest {v : ℚ} (hv : |v| < 2 ^ 128 - 2 ^ 103) : binary32.Nearest v (fl v) :=
  (roundQ_isRounding v).nearest ((roundQ_isRounding v).value_eq_fl hv)

theorem fl_error {v : ℚ} (hv : |v| < 2 ^ 128 - 2 ^ 103) : |fl v - v| ≤ |v| / 2 ^ 24 + 1 / 2 ^ 150 :=
  (roundQ_isRounding v).error ((roundQ_isRounding v).value_eq_fl hv)

/-- Of two numbers the greater has no smaller rounding: else each would be nearer to the other's. -/
theorem nearest_le {f : Format} {v v' r r' : ℚ} (h : f.Nearest v r) (h' : f.Nearest v' r') (hlt : v < v') :
    r ≤ r' := by
  by_contra! hr
  have hv := sq_le_sq.mpr (h.2.1 r' h'.1)
  have hv' := sq_le_sq.mpr (h'.2.1 r h.1)
  nlinarith [mul_pos (sub_pos.mpr hr) (sub_pos.mpr hlt)]

theorem fl_mono {v v' : ℚ} (h0 : 0 ≤ v) (h : v ≤ v') (hv' : v' < 2 ^ 128 - 2 ^ 103) : fl v ≤ fl v' := by
  rcases h.eq_or_lt with rfl | hlt
  · exact le_rfl
  · exact nearest_le (fl_nearest (by rw [abs_of_nonneg h0]; linarith))
      (fl_nearest (by rw [abs_of_nonneg (h0.trans h)]; exact hv')) hlt

/-- The numbers of the format are below the limit. -/
theorem abs_lt_of_isFloat {r : ℚ} (h : binary32.IsFloat r) : |r| < 2 ^ 128 - 2 ^ 103 := by
  obtain ⟨s, t, q, hq, hover, rfl⟩ := h
  simp only [binary32_frac, binary32_infCode] at hq hover
  have hlt : q * 2 ^ t < 33554431 * 2 ^ 252 * 1 := by
    rcases Nat.lt_or_ge t 254 with ht | ht
    · calc q * 2 ^ t ≤ (2 ^ 24 - 1) * 2 ^ 253 := by gcongr <;> omega
        _ < _ := by norm_num
    · calc q * 2 ^ t ≤ (2 ^ 23 - 1) * 2 ^ 254 := by gcongr <;> omega
        _ < _ := by norm_num
  have hlimit := (Fp.IsRounding.limit_le_iff one_pos).not.mpr hlt.not_ge
  rw [Nat.cast_one, div_one, not_le] at hlimit
  rwa [binary32_unit, abs_div, abs_signed, abs_of_pos (by positivity : (0 : ℚ) < 2 ^ 149)]

theorem fl_eq_self {r : ℚ} (h : binary32.IsFloat r) : fl r = r := by
  have hle := (fl_nearest (abs_lt_of_isFloat h)).2.1 r h
  rw [sub_self, abs_zero] at hle
  exact sub_eq_zero.mp (abs_eq_zero.mp (le_antisymm hle (abs_nonneg _)))

theorem fl_zero : fl 0 = 0 :=
  fl_eq_self ⟨false, 0, 0, by decide, by decide, by simp⟩

theorem fl_nonneg {v : ℚ} (h0 : 0 ≤ v) (hv : v < 2 ^ 128 - 2 ^ 103) : 0 ≤ fl v :=
  fl_zero ▸ fl_mono le_rfl h0 hv

theorem fl_lt {v : ℚ} (hv : |v| < 2 ^ 128 - 2 ^ 103) : fl v < 2 ^ 128 - 2 ^ 103 :=
  (abs_lt.mp (abs_lt_of_isFloat (fl_nearest hv).1)).2

/-- The least positive number is its own rounding. -/
theorem fl_unit : fl (1 / 2 ^ 149) = 1 / 2 ^ 149 :=
  fl_eq_self ⟨false, 0, 1, by decide, by decide, by simp⟩

end Sys2Proof.Machine

/-! Rules R142, R143 and R149: the code of `Q_ENCODE` by the number its clamped operand stands for. First the
quotient of the formula, where it is finite and how it rises; then the code. -/

namespace Sys2Proof.Machine

/-! Bounds and operands the rule admits. -/

/-- The patterns `min` and `max` are the numbers `lo < hi`, and the width is one the rule admits. -/
structure Scale (min max : F32) (bits : Byte) (lo hi : ℚ) : Prop where
  min_value : value32 min = some lo
  max_value : value32 max = some hi
  lt : lo < hi
  one_le_bits : 1 ≤ bits.toNat
  bits_le : bits.toNat ≤ 16

/-- The pattern `x` is the number `v` between the bounds. -/
structure Placed (x min max : F32) (bits : Byte) (v lo hi : ℚ) : Prop extends Scale min max bits lo hi where
  value : value32 x = some v
  lo_le : lo ≤ v
  le_hi : v ≤ hi

namespace Scale

variable {min max : F32} {bits : Byte} {lo hi : ℚ}

theorem cast_topCode (_ : Scale min max bits lo hi) : (topCode bits : ℚ) = 2 ^ bits.toNat - 1 := by
  rw [topCode, Nat.cast_sub Nat.one_le_two_pow, Nat.cast_pow, Nat.cast_ofNat, Nat.cast_one]

theorem one_le_topCode (h : Scale min max bits lo hi) : (1 : ℚ) ≤ topCode bits := by
  have := Nat.pow_le_pow_right two_pos h.one_le_bits
  exact_mod_cast (by unfold topCode; omega : 1 ≤ topCode bits)

theorem topCode_le (h : Scale min max bits lo hi) : topCode bits ≤ 65535 := by
  have := Nat.pow_le_pow_right two_pos h.bits_le
  unfold topCode
  omega

theorem cast_topCode_le (h : Scale min max bits lo hi) : (topCode bits : ℚ) ≤ 65535 := by
  exact_mod_cast h.topCode_le

theorem topCode_value (h : Scale min max bits lo hi) :
    (binary32.ofInt (topCode bits)).value binary32 = some (topCode bits : ℚ) :=
  ofInt_value (h.topCode_le.trans_lt (by norm_num))

theorem span_isRounding (h : Scale min max bits lo hi) :
    (binary32.sub (unpack32 max) (unpack32 min)).IsRounding (hi - lo) :=
  sub_isRounding h.max_value h.min_value

/-- The bounds differ by one unit of the format at least. -/
theorem unit_le_span (h : Scale min max bits lo hi) : 1 / 2 ^ 149 ≤ hi - lo := by
  obtain ⟨s, m, -, hlo⟩ := value_eq_some.mp h.min_value
  obtain ⟨t, n, -, hhi⟩ := value_eq_some.mp h.max_value
  have hlt := h.lt
  rw [← hlo, ← hhi, div_lt_div_iff_of_pos_right (by positivity), Int.cast_lt] at hlt
  rw [← hlo, ← hhi, ← sub_div, div_le_div_iff_of_pos_right (by positivity)]
  exact_mod_cast (by omega : 1 ≤ signed t n - signed s m)

theorem unit_le_fl_span (h : Scale min max bits lo hi) (hspan : hi - lo < 2 ^ 128 - 2 ^ 103) :
    1 / 2 ^ 149 ≤ fl (hi - lo) :=
  fl_unit ▸ fl_mono (by positivity) h.unit_le_span hspan

theorem span_nonneg (h : Scale min max bits lo hi) : 0 ≤ hi - lo :=
  sub_nonneg.mpr h.lt.le

theorem span_value (h : Scale min max bits lo hi) (hspan : hi - lo < 2 ^ 128 - 2 ^ 103) :
    (binary32.sub (unpack32 max) (unpack32 min)).value binary32 = some (fl (hi - lo)) :=
  h.span_isRounding.value_eq_fl (by rwa [abs_of_nonneg h.span_nonneg])

theorem span_eq_inf (h : Scale min max bits lo hi) (hspan : 2 ^ 128 - 2 ^ 103 ≤ hi - lo) :
    binary32.sub (unpack32 max) (unpack32 min) = .inf false := by
  rw [h.span_isRounding.eq_inf (hspan.trans (le_abs_self _)), decide_eq_false h.span_nonneg.not_gt]

theorem not_badBits (h : Scale min max bits lo hi) : ¬badBits bits = true :=
  not_badBits_iff.mpr ⟨h.one_le_bits, h.bits_le⟩

theorem not_badRange (h : Scale min max bits lo hi) : ¬badRange min max = true := by
  rw [badRange_eq_true, not_not]
  exact ⟨lo, hi, h.min_value, h.max_value, h.lt⟩

end Scale

/-! The quotient of rule R143. -/

/-- Neither the difference nor the product overflows, at the number `v`. -/
def Fits (bits : Byte) (lo v : ℚ) : Prop :=
  v - lo < 2 ^ 128 - 2 ^ 103 ∧ fl (v - lo) * topCode bits < 2 ^ 128 - 2 ^ 103

/-- The quotient of the formula at the number `v`, where it is finite. -/
def quotient (bits : Byte) (lo hi v : ℚ) : ℚ :=
  if hi - lo < 2 ^ 128 - 2 ^ 103 then fl (fl (fl (v - lo) * topCode bits) / fl (hi - lo)) else 0

theorem fits_self (bits : Byte) (lo : ℚ) : Fits bits lo lo := by
  rw [Fits, sub_self, fl_zero, zero_mul]
  constructor <;> norm_num

theorem mul_value_none {x : Fp} (y : Fp) (h : x.value binary32 = none) :
    (binary32.mul x y).value binary32 = none := by
  cases x with
  | nan => rfl
  | inf a =>
    cases y with
    | nan | inf => rfl
    | fin b n => simp only [Format.mul]; split <;> rfl
  | fin => cases h

theorem div_value_none {x : Fp} (y : Fp) (h : x.value binary32 = none) :
    (binary32.div x y).value binary32 = none := by
  cases x with
  | nan => rfl
  | inf a => cases y <;> rfl
  | fin => cases h

theorem div_inf_value {x : Fp} {a : ℚ} (s : Bool) (h : x.value binary32 = some a) :
    (binary32.div x (.inf s)).value binary32 = some 0 := by
  obtain ⟨t, m, rfl, -⟩ := value_eq_some.mp h
  cases s <;> cases t <;> simp [Format.div]

namespace Placed

variable {x y min max : F32} {bits : Byte} {v w lo hi : ℚ}

theorem diff_nonneg (h : Placed x min max bits v lo hi) : 0 ≤ v - lo :=
  sub_nonneg.mpr h.lo_le

theorem diff_le (h : Placed x min max bits v lo hi) : v - lo ≤ hi - lo :=
  sub_le_sub_right h.le_hi lo

theorem scaled_nonneg (h : Placed x min max bits v lo hi) (hfits : Fits bits lo v) :
    0 ≤ fl (v - lo) * topCode bits :=
  mul_nonneg (fl_nonneg h.diff_nonneg hfits.1) (Nat.cast_nonneg _)

/-- What fits at a number fits below it. -/
theorem fits_of_le (hx : Placed x min max bits v lo hi) (hvw : v ≤ w) (hw : Fits bits lo w) :
    Fits bits lo v := by
  have hdiff : v - lo ≤ w - lo := sub_le_sub_right hvw lo
  refine ⟨hdiff.trans_lt hw.1, lt_of_le_of_lt ?_ hw.2⟩
  exact mul_le_mul_of_nonneg_right (fl_mono hx.diff_nonneg hdiff hw.1) (Nat.cast_nonneg _)

/-- The quotient before its rounding exceeds the largest code by less than one: the difference is at most the
span, and the product has one rounding. -/
theorem ratio_mem (h : Placed x min max bits v lo hi) (hfits : Fits bits lo v)
    (hspan : hi - lo < 2 ^ 128 - 2 ^ 103) :
    0 ≤ fl (fl (v - lo) * topCode bits) / fl (hi - lo) ∧
      fl (fl (v - lo) * topCode bits) / fl (hi - lo) ≤ topCode bits + 3 / 4 := by
  have hS := h.cast_topCode_le
  have hW := h.unit_le_fl_span hspan
  have hWpos : 0 < fl (hi - lo) := lt_of_lt_of_le (by positivity) hW
  have hd : fl (v - lo) ≤ fl (hi - lo) := fl_mono h.diff_nonneg h.diff_le hspan
  have hscaled := h.scaled_nonneg hfits
  have hprod : fl (v - lo) * topCode bits ≤ fl (hi - lo) * topCode bits :=
    mul_le_mul_of_nonneg_right hd (Nat.cast_nonneg _)
  have herr := (abs_le.mp (fl_error (v := fl (v - lo) * topCode bits)
    (by rw [abs_of_nonneg hscaled]; exact hfits.2))).2
  rw [abs_of_nonneg hscaled] at herr
  refine ⟨div_nonneg (fl_nonneg hscaled hfits.2) hWpos.le, ?_⟩
  rw [div_le_iff₀ hWpos]
  have hWS : fl (hi - lo) * topCode bits ≤ fl (hi - lo) * 65535 := mul_le_mul_of_nonneg_left hS hWpos.le
  linarith

theorem abs_ratio_lt (h : Placed x min max bits v lo hi) (hfits : Fits bits lo v)
    (hspan : hi - lo < 2 ^ 128 - 2 ^ 103) :
    |fl (fl (v - lo) * topCode bits) / fl (hi - lo)| < 2 ^ 128 - 2 ^ 103 := by
  obtain ⟨hlow, hhigh⟩ := h.ratio_mem hfits hspan
  have hS := h.cast_topCode_le
  rw [abs_of_nonneg hlow]
  norm_num
  linarith

theorem quotient_mem (h : Placed x min max bits v lo hi) (hfits : Fits bits lo v) :
    0 ≤ quotient bits lo hi v ∧ quotient bits lo hi v < topCode bits + 1 := by
  have hS := h.cast_topCode_le
  have hS0 : (0 : ℚ) ≤ topCode bits := Nat.cast_nonneg _
  unfold quotient
  split
  · next hspan =>
    obtain ⟨hlow, hhigh⟩ := h.ratio_mem hfits hspan
    have hlt := h.abs_ratio_lt hfits hspan
    have herr := (abs_le.mp (fl_error hlt)).2
    rw [abs_of_nonneg hlow] at herr hlt
    exact ⟨fl_nonneg hlow hlt, by linarith⟩
  · exact ⟨le_rfl, by linarith⟩

theorem quotient_mono (hx : Placed x min max bits v lo hi) (hy : Placed y min max bits w lo hi) (hvw : v ≤ w)
    (hw : Fits bits lo w) : quotient bits lo hi v ≤ quotient bits lo hi w := by
  have hv := hx.fits_of_le hvw hw
  unfold quotient
  split
  · next hspan =>
    have hWpos : 0 < fl (hi - lo) := lt_of_lt_of_le (by positivity) (hx.unit_le_fl_span hspan)
    have hdiff := fl_mono hx.diff_nonneg (sub_le_sub_right hvw lo) hw.1
    have hprod := fl_mono (hx.scaled_nonneg hv) (mul_le_mul_of_nonneg_right hdiff (Nat.cast_nonneg _)) hw.2
    have hlt := hy.abs_ratio_lt hw hspan
    rw [abs_of_nonneg (hy.ratio_mem hw hspan).1] at hlt
    exact fl_mono (hx.ratio_mem hv hspan).1 (div_le_div_of_nonneg_right hprod hWpos.le) hlt
  · exact le_rfl

/-! The quotient as the model computes it. -/

theorem diff_isRounding (h : Placed x min max bits v lo hi) :
    (binary32.sub (unpack32 x) (unpack32 min)).IsRounding (v - lo) :=
  sub_isRounding h.value h.min_value

theorem scaled_isRounding (h : Placed x min max bits v lo hi) (hdiff : v - lo < 2 ^ 128 - 2 ^ 103) :
    (binary32.mul (binary32.sub (unpack32 x) (unpack32 min)) (binary32.ofInt (topCode bits))).IsRounding
      (fl (v - lo) * topCode bits) :=
  mul_isRounding (h.diff_isRounding.value_eq_fl (by rwa [abs_of_nonneg h.diff_nonneg])) h.topCode_value

theorem quantum_value (h : Placed x min max bits v lo hi) (hfits : Fits bits lo v) :
    (quantum quantArith x min max bits).value binary32 = some (quotient bits lo hi v) := by
  have hscaled := (h.scaled_isRounding hfits.1).value_eq_fl
    (by rw [abs_of_nonneg (h.scaled_nonneg hfits)]; exact hfits.2)
  rw [quantum_eq]
  rcases lt_or_ge (hi - lo) (2 ^ 128 - 2 ^ 103) with hspan | hspan
  · have hW : fl (hi - lo) ≠ 0 := (lt_of_lt_of_le (by positivity) (h.unit_le_fl_span hspan)).ne'
    rw [quotient, if_pos hspan]
    exact (div_isRounding hscaled (h.span_value hspan) hW).value_eq_fl (h.abs_ratio_lt hfits hspan)
  · rw [quotient, if_neg hspan.not_gt, h.span_eq_inf hspan]
    exact div_inf_value false hscaled

theorem quantum_value_none (h : Placed x min max bits v lo hi) (hfits : ¬Fits bits lo v) :
    (quantum quantArith x min max bits).value binary32 = none := by
  rw [quantum_eq]
  refine div_value_none _ ?_
  rcases lt_or_ge (v - lo) (2 ^ 128 - 2 ^ 103) with hdiff | hdiff
  · have hscaled : 2 ^ 128 - 2 ^ 103 ≤ fl (v - lo) * topCode bits := not_lt.mp fun hlt => hfits ⟨hdiff, hlt⟩
    exact (h.scaled_isRounding hdiff).value_eq_none (hscaled.trans (le_abs_self _))
  · exact mul_value_none _ (h.diff_isRounding.value_eq_none (hdiff.trans (le_abs_self _)))

theorem isFinite_quantum_iff (h : Placed x min max bits v lo hi) :
    (quantum quantArith x min max bits).isFinite = true ↔ Fits bits lo v := by
  rw [isFinite_iff]
  refine ⟨fun ⟨q, hq⟩ => ?_, fun hfits => ⟨_, h.quantum_value hfits⟩⟩
  by_contra hfits
  cases hq.symm.trans (h.quantum_value_none hfits)

end Placed

/-! The code. -/

theorem trunc_eq_floor {x : Fp} {q : ℚ} (hx : x.value binary32 = some q) (h0 : 0 ≤ q) :
    binary32.trunc x = some (⌊q⌋₊ : ℤ) := by
  obtain ⟨s, m, rfl, rfl⟩ := value_eq_some.mp hx
  cases s with
  | false =>
    have hfloor : ⌊(m : ℚ) / 2 ^ 149⌋₊ = m / 2 ^ 149 := by
      exact_mod_cast Nat.floor_div_eq_div (K := ℚ) m (2 ^ 149)
    simp only [Format.trunc, signed_false, Int.cast_natCast, hfloor, binary32_unit]
  | true =>
    have hm : m = 0 := by
      by_contra hm
      have : (0 : ℚ) < m / 2 ^ 149 := by positivity
      simp only [signed_true, Int.cast_neg, Int.cast_natCast, neg_div] at h0
      linarith
    simp [hm, Format.trunc]

theorem trunc_eq_none {x : Fp} (hx : x.value binary32 = none) : binary32.trunc x = none := by
  cases x with
  | fin => cases hx
  | nan | inf => rfl

namespace Placed

variable {x y min max : F32} {bits : Byte} {v w lo hi : ℚ}

theorem floor_quotient_le (h : Placed x min max bits v lo hi) (hfits : Fits bits lo v) :
    ⌊quotient bits lo hi v⌋₊ ≤ topCode bits := by
  have hlt := (h.quotient_mem hfits).2
  exact Nat.le_of_lt_succ ((Nat.floor_lt (h.quotient_mem hfits).1).mpr (by exact_mod_cast hlt))

theorem finiteCode_eq (h : Placed x min max bits v lo hi) (hfits : Fits bits lo v) :
    finiteCode quantArith x min max bits = ⌊quotient bits lo hi v⌋₊ := by
  have htrunc : (arithFormat quantArith).trunc (quantum quantArith x min max bits) = some _ :=
    trunc_eq_floor (h.quantum_value hfits) (h.quotient_mem hfits).1
  rw [finiteCode, htrunc]
  rfl

theorem encodeCode_eq (h : Placed x min max bits v lo hi) (hfits : Fits bits lo v) :
    encodeCode quantArith x min max bits = BitVec.ofNat 32 ⌊quotient bits lo hi v⌋₊ := by
  have htrunc : (arithFormat quantArith).trunc (quantum quantArith x min max bits) = some _ :=
    trunc_eq_floor (h.quantum_value hfits) (h.quotient_mem hfits).1
  rw [encodeCode, htrunc]
  exact BitVec.ofInt_natCast _ _

theorem encodeCode_eq_overflowCode (h : Placed x min max bits v lo hi) (hfits : ¬Fits bits lo v) :
    encodeCode quantArith x min max bits = BitVec.ofNat 32 (overflowCode quantArith x min max bits) := by
  have htrunc : (arithFormat quantArith).trunc (quantum quantArith x min max bits) = none :=
    trunc_eq_none (h.quantum_value_none hfits)
  rw [encodeCode, htrunc]

end Placed

end Sys2Proof.Machine

/-! Rule R142, the clamp, and with it what `Q_ENCODE` answers by the numbers of its operands. -/

namespace Sys2Proof.Machine

/-! The clamp. -/

/-- The number the operand `x` is clamped to, an infinity to the bound on its side. -/
def ClampsTo (x : F32) (lo hi v : ℚ) : Prop :=
  (∃ a, value32 x = some a ∧ v = if a < lo then lo else if hi < a then hi else a) ∨
    (unpack32 x = .inf false ∧ v = hi) ∨ (unpack32 x = .inf true ∧ v = lo)

theorem exists_clampsTo {x : F32} (hx : (unpack32 x).isNan = false) (lo hi : ℚ) : ∃ v, ClampsTo x lo hi v := by
  cases h : unpack32 x with
  | nan => rw [h] at hx; cases hx
  | inf s => cases s with
    | false => exact ⟨hi, .inr (.inl ⟨h, rfl⟩)⟩
    | true => exact ⟨lo, .inr (.inr ⟨h, rfl⟩)⟩
  | fin s m => exact ⟨_, .inl ⟨_, by rw [value32, h, value_fin], rfl⟩⟩

theorem ClampsTo.isNan_eq_false {x : F32} {lo hi v : ℚ} (h : ClampsTo x lo hi v) :
    (unpack32 x).isNan = false := by
  rcases h with ⟨a, ha, -⟩ | ⟨hinf, -⟩ | ⟨hinf, -⟩
  · exact Bool.eq_false_iff.mpr (not_isNan_of_value ha)
  · rw [hinf]; rfl
  · rw [hinf]; rfl

theorem lt_inf_false {x : Fp} {a : ℚ} (h : x.value binary32 = some a) :
    x.lt (.inf false) = true ∧ (Fp.inf false).lt x = false := by
  obtain ⟨s, m, rfl, -⟩ := value_eq_some.mp h
  exact ⟨rfl, rfl⟩

theorem inf_true_lt {x : Fp} {a : ℚ} (h : x.value binary32 = some a) :
    (Fp.inf true).lt x = true ∧ x.lt (.inf true) = false := by
  obtain ⟨s, m, rfl, -⟩ := value_eq_some.mp h
  exact ⟨rfl, rfl⟩

theorem clamp_of_lt_min {x min : F32} (max : F32) (h : (unpack32 x).lt (unpack32 min) = true) :
    clamp x min max = min :=
  if_pos h

theorem clamp_of_max_lt {x min max : F32} (h : (unpack32 x).lt (unpack32 min) = false)
    (h' : (unpack32 max).lt (unpack32 x) = true) : clamp x min max = max := by
  rw [clamp, h, if_neg Bool.false_ne_true, if_pos h']

theorem clamp_inf_false {x min max : F32} {lo hi : ℚ} (hmin : value32 min = some lo)
    (hmax : value32 max = some hi) (h : unpack32 x = .inf false) : clamp x min max = max :=
  clamp_of_max_lt (h ▸ (lt_inf_false hmin).2) (h ▸ (lt_inf_false hmax).1)

theorem clamp_inf_true {x min : F32} {lo : ℚ} (max : F32) (hmin : value32 min = some lo)
    (h : unpack32 x = .inf true) : clamp x min max = min :=
  clamp_of_lt_min max (h ▸ (inf_true_lt hmin).1)

theorem clamp_of_value_lt {x min : F32} {a lo : ℚ} (max : F32) (hx : value32 x = some a)
    (hmin : value32 min = some lo) (h : a < lo) : clamp x min max = min :=
  clamp_of_lt_min max ((Fp.lt_eq_true hx hmin).mpr h)

theorem clamp_of_lt_value {x min max : F32} {a lo hi : ℚ} (hx : value32 x = some a)
    (hmin : value32 min = some lo) (hmax : value32 max = some hi) (h : hi < a) (hlt : lo < hi) :
    clamp x min max = max :=
  clamp_of_max_lt (Bool.eq_false_iff.mpr (mt (Fp.lt_eq_true hx hmin).mp (hlt.trans h).not_gt))
    ((Fp.lt_eq_true hmax hx).mpr h)

section

variable {x y min max : F32} {bits : Byte} {v w lo hi : ℚ}

theorem Scale.placed_min (h : Scale min max bits lo hi) : Placed min min max bits lo lo hi :=
  ⟨h, h.min_value, le_rfl, h.lt.le⟩

theorem Scale.placed_max (h : Scale min max bits lo hi) : Placed max min max bits hi lo hi :=
  ⟨h, h.max_value, h.lt.le, le_rfl⟩

/-- The clamped operand is the pattern of the number clamped to. -/
theorem Scale.placed_clamp (h : Scale min max bits lo hi) (hx : ClampsTo x lo hi v) :
    Placed (clamp x min max) min max bits v lo hi := by
  rcases hx with ⟨a, ha, rfl⟩ | ⟨hinf, rfl⟩ | ⟨hinf, rfl⟩
  · split_ifs with hlow hhigh
    · rw [clamp_of_value_lt max ha h.min_value hlow]
      exact h.placed_min
    · rw [clamp_of_lt_value ha h.min_value h.max_value hhigh h.lt]
      exact h.placed_max
    · rw [clamp_eq_self ha h.min_value h.max_value (not_lt.mp hlow) (not_lt.mp hhigh)]
      exact ⟨h, ha, not_lt.mp hlow, not_lt.mp hhigh⟩
  · rw [clamp_inf_false h.min_value h.max_value hinf]
    exact h.placed_max
  · rw [clamp_inf_true max h.min_value hinf]
    exact h.placed_min

/-- The clamp keeps the order, infinities included. -/
theorem ClampsTo.mono (hlt : lo < hi) (hx : ClampsTo x lo hi v) (hy : ClampsTo y lo hi w)
    (h : (unpack32 y).lt (unpack32 x) = false) : v ≤ w := by
  have hw : lo ≤ w := by
    rcases hy with ⟨b, -, rfl⟩ | ⟨-, rfl⟩ | ⟨-, rfl⟩
    · split_ifs <;> linarith
    · exact hlt.le
    · exact le_rfl
  have hv : v ≤ hi := by
    rcases hx with ⟨a, -, rfl⟩ | ⟨-, rfl⟩ | ⟨-, rfl⟩
    · split_ifs <;> linarith
    · exact le_rfl
    · exact hlt.le
  rcases hx with ⟨a, ha, rfl⟩ | ⟨hx, rfl⟩ | ⟨hx, rfl⟩
  · rcases hy with ⟨b, hb, rfl⟩ | ⟨hy, rfl⟩ | ⟨hy, rfl⟩
    · have hab : a ≤ b := not_lt.mp fun hba => by
        rw [(Fp.lt_eq_true hb ha).mpr hba] at h
        cases h
      split_ifs <;> linarith
    · exact hv
    · rw [hy, (inf_true_lt ha).1] at h
      cases h
  · rcases hy with ⟨b, hb, rfl⟩ | ⟨hy, rfl⟩ | ⟨hy, rfl⟩
    · rw [hx, (lt_inf_false hb).1] at h
      cases h
    · exact le_rfl
    · rw [hx, hy] at h
      cases h
  · exact hw

/-! What `Q_ENCODE` answers. -/

theorem Scale.exec_qEncode (h : Scale min max bits lo hi) (hx : (unpack32 x).isNan = false) (s : State) :
    exec (.qEncode x min max bits) s =
      .next (s.answering (.code (encodeCode quantArith (clamp x min max) min max bits))) := by
  rw [Machine.exec_qEncode, quantEncode, if_neg h.not_badBits, if_neg h.not_badRange, hx,
    if_neg Bool.false_ne_true, finish_ok]

end

/-- Settles O33: where the difference and the product fit, the code is the integer part of the quotient. -/
theorem qEncodeFollowsTheFormula : Obligations.QEncodeFollowsTheFormula := by
  intro s x min max bits lo hi xc h1 h16 hmin hmax hlt hx hdiff
  have h : Scale min max bits lo hi := ⟨hmin, hmax, hlt, h1, h16⟩
  have hclamp : ClampsTo x lo hi xc :=
    hx.imp_right (Or.imp (fun ⟨hx, hxc⟩ => ⟨hx ▸ rfl, hxc⟩) (fun ⟨hx, hxc⟩ => ⟨hx ▸ rfl, hxc⟩))
  have hplaced := h.placed_clamp hclamp
  have habs : |xc - lo| < 2 ^ 128 - 2 ^ 103 := by rwa [abs_of_nonneg hplaced.diff_nonneg]
  refine ⟨fl (xc - lo), fl_nearest habs, fun hscaled => ?_⟩
  rw [← h.cast_topCode] at hscaled ⊢
  have hfits : Fits bits lo xc := ⟨hdiff, hscaled⟩
  rw [h.exec_qEncode hclamp.isNan_eq_false, hplaced.encodeCode_eq hfits]
  refine ⟨fun hspan => ?_, fun hspan => ?_⟩
  · have hquotient : quotient bits lo hi xc = _ := if_pos hspan
    refine ⟨_, _, quotient bits lo hi xc, fl_nearest ?_, fl_nearest ?_, ?_, (hplaced.quotient_mem hfits).1, rfl⟩
    · rwa [abs_of_nonneg (hplaced.scaled_nonneg hfits)]
    · rwa [abs_of_nonneg h.span_nonneg]
    · rw [hquotient]
      exact fl_nearest (hplaced.abs_ratio_lt hfits hspan)
  · rw [quotient, if_neg hspan.not_gt, Nat.floor_zero]
    rfl

/-- `Q_ENCODE` depends on its clamped operand alone, NaN apart. -/
theorem quantEncode_congr {x y min max : F32} (bits : Byte) (hx : (unpack32 x).isNan = false)
    (hy : (unpack32 y).isNan = false) (h : clamp x min max = clamp y min max) :
    quantEncode x min max bits = quantEncode y min max bits := by
  simp only [quantEncode, hx, hy, h, Bool.false_eq_true, if_false]

/-- Settles O35: the bound is clamped to itself. -/
theorem qEncodeClampsItsInput : Obligations.QEncodeClampsItsInput := by
  intro s x min max bits lo hi hmin hmax hlt
  have hfinite {y : F32} {a : ℚ} (hy : value32 y = some a) : (unpack32 y).isNan = false :=
    Bool.eq_false_iff.mpr (not_isNan_of_value hy)
  have hself {y : F32} {a : ℚ} (hy : value32 y = some a) (ha : lo ≤ a) (ha' : a ≤ hi) :
      clamp y min max = y := clamp_eq_self hy hmin hmax ha ha'
  simp only [exec_qEncode]
  refine ⟨fun hx => ?_, fun hx => ?_⟩
  · have hsame := hself hmin le_rfl hlt.le
    rcases hx with ⟨v, hv, hlow⟩ | rfl
    · rw [quantEncode_congr bits (hfinite hv) (hfinite hmin)
        ((clamp_of_value_lt max hv hmin hlow).trans hsame.symm)]
    · rw [quantEncode_congr bits rfl (hfinite hmin) ((clamp_inf_true max hmin rfl).trans hsame.symm)]
  · have hsame := hself hmax hlt.le le_rfl
    rcases hx with ⟨v, hv, hhigh⟩ | rfl
    · rw [quantEncode_congr bits (hfinite hv) (hfinite hmax)
        ((clamp_of_lt_value hv hmin hmax hhigh hlt).trans hsame.symm)]
    · rw [quantEncode_congr bits rfl (hfinite hmax) ((clamp_inf_false hmin hmax rfl).trans hsame.symm)]

end Sys2Proof.Machine

/-! Rule R149: the codes where the quotient overflows. The places of the patterns rise with the numbers they
stand for, so the search for the last operand that still fits finds one that no other exceeds. -/

namespace Sys2Proof.Machine

/-! Patterns in rising order. -/

/-- The number of a finite pattern without its sign, in units of the least positive value. -/
def magnitude (c : Nat) : Nat :=
  if c / 2 ^ 23 = 0 then c % 2 ^ 23 else (2 ^ 23 + c % 2 ^ 23) * 2 ^ (c / 2 ^ 23 - 1)

theorem magnitude_mono {c c' : Nat} (h : c ≤ c') : magnitude c ≤ magnitude c' := by
  have hdiv : c / 2 ^ 23 ≤ c' / 2 ^ 23 := Nat.div_le_div_right h
  have hfrac := Nat.mod_lt c (Nat.two_pow_pos 23)
  have hc := Nat.div_add_mod c (2 ^ 23)
  have hc' := Nat.div_add_mod c' (2 ^ 23)
  unfold magnitude
  generalize c / 2 ^ 23 = e at *
  generalize c' / 2 ^ 23 = e' at *
  split_ifs with h0 h0'
  · omega
  · calc c % 2 ^ 23 ≤ (2 ^ 23 + c' % 2 ^ 23) * 1 := by omega
      _ ≤ (2 ^ 23 + c' % 2 ^ 23) * 2 ^ (e' - 1) := Nat.mul_le_mul_left _ (Nat.two_pow_pos _)
  · omega
  · rcases hdiv.eq_or_lt with rfl | hlt
    · exact Nat.mul_le_mul_right _ (by omega)
    · calc (2 ^ 23 + c % 2 ^ 23) * 2 ^ (e - 1) ≤ 2 ^ 23 * 2 * 2 ^ (e - 1) := Nat.mul_le_mul_right _ (by omega)
        _ = 2 ^ 23 * 2 ^ e := by rw [Nat.mul_assoc, ← pow_succ', Nat.sub_add_cancel (by omega)]
        _ ≤ (2 ^ 23 + c' % 2 ^ 23) * 2 ^ (e' - 1) := by gcongr <;> omega

theorem expField_toNat (w : F32) : (w.extractLsb' 23 8).toNat = w.toNat % 2 ^ 31 / 2 ^ 23 := by
  rw [extractLsb'_eq_ofNat_div, BitVec.toNat_ofNat]
  omega

theorem fracField_toNat (w : F32) : (w.extractLsb' 0 23).toNat = w.toNat % 2 ^ 31 % 2 ^ 23 := by
  rw [extractLsb'_eq_ofNat_div, BitVec.toNat_ofNat]
  omega

theorem unpack32_eq_magnitude {w : F32} (h : w.toNat % 2 ^ 31 < 255 * 2 ^ 23) :
    unpack32 w = .fin w.msb (magnitude (w.toNat % 2 ^ 31)) := by
  simp only [unpack32, expField_toNat, fracField_toNat, magnitude]
  rw [if_neg (by omega)]
  split <;> rfl

theorem value32_eq_none {w : F32} (h : 255 * 2 ^ 23 ≤ w.toNat % 2 ^ 31) : value32 w = none := by
  simp only [value32, unpack32, expField_toNat, fracField_toNat]
  rw [if_pos (by omega)]
  split <;> rfl

/-- The place of a pattern by its sign and the rest: the negative ones fall, the others rise. -/
theorem orderKey_eq (w : F32) :
    orderKey w = if w.msb then 2 ^ 31 - 1 - w.toNat % 2 ^ 31 else 2 ^ 31 + w.toNat % 2 ^ 31 := by
  have hw := w.isLt
  unfold orderKey
  cases h : w.msb <;> simp [BitVec.msb_eq_decide] at h ⊢ <;> omega

theorem exists_value_iff {w : F32} : (∃ v, value32 w = some v) ↔ w.toNat % 2 ^ 31 < 255 * 2 ^ 23 := by
  refine ⟨fun ⟨v, hv⟩ => ?_, fun h => ⟨_, by rw [value32, unpack32_eq_magnitude h, value_fin]⟩⟩
  by_contra! h
  cases hv.symm.trans (value32_eq_none h)

/-- The finite patterns are all but the first and the last `2^23` places. -/
theorem exists_value_iff_orderKey {w : F32} :
    (∃ v, value32 w = some v) ↔ 2 ^ 23 ≤ orderKey w ∧ orderKey w < 2 ^ 32 - 2 ^ 23 := by
  rw [exists_value_iff, orderKey_eq]
  split <;> omega

theorem orderKey_lt_of_value_lt {a b : F32} {u v : ℚ} (ha : value32 a = some u) (hb : value32 b = some v)
    (h : u < v) : orderKey a < orderKey b := by
  have hfa := exists_value_iff.mp ⟨u, ha⟩
  have hfb := exists_value_iff.mp ⟨v, hb⟩
  rw [value32, unpack32_eq_magnitude hfa, value_fin, Option.some.injEq] at ha
  rw [value32, unpack32_eq_magnitude hfb, value_fin, Option.some.injEq] at hb
  rw [← ha, ← hb, div_lt_div_iff_of_pos_right (by positivity), Int.cast_lt] at h
  rw [orderKey_eq, orderKey_eq]
  generalize a.toNat % 2 ^ 31 = c at *
  generalize b.toNat % 2 ^ 31 = c' at *
  generalize a.msb = s at *
  generalize b.msb = t at *
  have hmono : c' ≤ c → magnitude c' ≤ magnitude c := magnitude_mono
  have hmono' : c ≤ c' → magnitude c ≤ magnitude c' := magnitude_mono
  cases s <;> cases t
  all_goals
    simp only [signed_false, signed_true, if_true, Bool.false_eq_true, if_false] at h ⊢
    omega

theorem orderKey_ofOrderKey {k : Nat} (hk : k < 2 ^ 32) : orderKey (ofOrderKey k) = k := by
  rw [orderKey_eq, BitVec.msb_eq_decide]
  unfold ofOrderKey
  split
  · rw [BitVec.toNat_ofNat, if_pos (by simp; omega)]
    omega
  · rw [BitVec.toNat_ofNat, if_neg (by simp; omega)]
    omega

/-! The last operand that fits. -/

namespace Placed

variable {x y min max : F32} {bits : Byte} {v w lo hi : ℚ}

theorem orderKey_le (hx : Placed x min max bits v lo hi) (hy : Placed y min max bits w lo hi)
    (h : orderKey x ≤ orderKey y) : v ≤ w :=
  not_lt.mp fun hlt => (orderKey_lt_of_value_lt hy.value hx.value hlt).not_ge h

/-- A place between two operands' places is an operand's, between the same bounds. -/
theorem exists_ofOrderKey (hx : Placed x min max bits v lo hi) (hy : Placed y min max bits w lo hi) {k : Nat}
    (hk : orderKey x ≤ k) (hk' : k ≤ orderKey y) : ∃ u, Placed (ofOrderKey k) min max bits u lo hi := by
  have hkey := orderKey_ofOrderKey (hk'.trans_lt (orderKey_lt y))
  obtain ⟨hlow, -⟩ := exists_value_iff_orderKey.mp ⟨v, hx.value⟩
  obtain ⟨-, hhigh⟩ := exists_value_iff_orderKey.mp ⟨w, hy.value⟩
  obtain ⟨u, hu⟩ : ∃ u, value32 (ofOrderKey k) = some u :=
    exists_value_iff_orderKey.mpr (by rw [hkey]; exact ⟨hlow.trans hk, hk'.trans_lt hhigh⟩)
  refine ⟨u, hx.toScale, hu, ?_, ?_⟩
  · refine hx.lo_le.trans (not_lt.mp fun hlt => ?_)
    exact (hkey ▸ orderKey_lt_of_value_lt hu hx.value hlt).not_ge hk
  · refine le_trans (not_lt.mp fun hlt => ?_) hy.le_hi
    exact (hkey ▸ orderKey_lt_of_value_lt hy.value hu hlt).not_ge hk'

/-- What the search of `lastFiniteCode` looks for. -/
def fitsAt (x min max : F32) (bits : Byte) (k : Nat) : Bool :=
  decide (k ≤ orderKey x) && (quantum quantArith (ofOrderKey k) min max bits).isFinite

theorem lastFiniteCode_eq (x min max : F32) (bits : Byte) : lastFiniteCode quantArith x min max bits =
    finiteCode quantArith (ofOrderKey (greatest (fitsAt x min max bits) 32 (orderKey min))) min max bits := rfl

theorem fitsAt_iff {k : Nat} (hk : Placed (ofOrderKey k) min max bits w lo hi) :
    fitsAt x min max bits k = true ↔ k ≤ orderKey x ∧ Fits bits lo w := by
  rw [fitsAt, Bool.and_eq_true, decide_eq_true_eq, hk.isFinite_quantum_iff]

/-- Where the quotient overflows, the search finds an operand whose quotient does not and that no other such
operand exceeds. -/
theorem lastFiniteCode_spec (h : Placed x min max bits v lo hi) (hfits : ¬Fits bits lo v) :
    ∃ (z : F32) (u : ℚ), Placed z min max bits u lo hi ∧ Fits bits lo u ∧
      lastFiniteCode quantArith x min max bits = ⌊quotient bits lo hi u⌋₊ ∧
      ∀ y w, Placed y min max bits w lo hi → Fits bits lo w → w ≤ u := by
  have hmin := h.toScale.placed_min
  have hbelow {y w} (hy : Placed y min max bits w lo hi) (hw : Fits bits lo w) : orderKey y < orderKey x :=
    orderKey_lt_of_value_lt hy.value h.value (not_le.mp fun hle => hfits (h.fits_of_le hle hw))
  have hfound {y w} (hy : Placed y min max bits w lo hi) (hw : Fits bits lo w) :
      fitsAt x min max bits (orderKey y) = true := by
    rw [← ofOrderKey_orderKey y] at hy
    exact (fitsAt_iff hy).mpr ⟨(ofOrderKey_orderKey y ▸ hbelow hy hw).le, hw⟩
  have hplaced {k} (hk : orderKey min ≤ k) (hk' : k ≤ orderKey x) := hmin.exists_ofOrderKey h hk hk'
  have hdown : ∀ j k, orderKey min ≤ j → j ≤ k → fitsAt x min max bits k = true →
      fitsAt x min max bits j = true := by
    intro j k hj hjk hk
    have hkx : k ≤ orderKey x := of_decide_eq_true (Bool.and_eq_true_iff.mp hk).1
    obtain ⟨a, ha⟩ := hplaced hj (hjk.trans hkx)
    obtain ⟨b, hb⟩ := hplaced (hj.trans hjk) hkx
    have hab : a ≤ b := ha.orderKey_le hb (by
      have := orderKey_lt x
      rwa [orderKey_ofOrderKey (by omega), orderKey_ofOrderKey (by omega)])
    exact (fitsAt_iff ha).mpr ⟨hjk.trans hkx, ha.fits_of_le hab ((fitsAt_iff hb).mp hk).2⟩
  obtain ⟨hsat, hle, htop⟩ := greatest_spec 32 (orderKey min) (hfound hmin (fits_self bits lo)) hdown
  rw [lastFiniteCode_eq]
  generalize greatest (fitsAt x min max bits) 32 (orderKey min) = k at *
  have hkx : k ≤ orderKey x := of_decide_eq_true (Bool.and_eq_true_iff.mp hsat).1
  obtain ⟨u, hu⟩ := hplaced hle hkx
  have huf := ((fitsAt_iff hu).mp hsat).2
  refine ⟨_, u, hu, huf, hu.finiteCode_eq huf, fun y w hy hw => hy.orderKey_le hu ?_⟩
  rw [orderKey_ofOrderKey (hkx.trans_lt (orderKey_lt x))]
  exact htop _ ((orderKey_lt y).trans_le (Nat.le_add_left _ _)) (hfound hy hw)

end Placed

end Sys2Proof.Machine

/-! Rule R149, the range and the order of `Q_ENCODE`'s codes, overflowing quotients included. -/

namespace Sys2Proof.Machine

theorem units32_eq {x : F32} {v : ℚ} (h : value32 x = some v) : (units32 x : ℚ) / 2 ^ 149 = v := by
  obtain ⟨s, m, hx, rfl⟩ := value_eq_some.mp h
  rw [units32, hx]

theorem units32_mono {x y : F32} {v w : ℚ} (hx : value32 x = some v) (hy : value32 y = some w) (h : v ≤ w) :
    units32 x ≤ units32 y := by
  rw [← units32_eq hx, ← units32_eq hy, div_le_div_iff_of_pos_right (by positivity), Int.cast_le] at h
  exact h

section

variable {x y min max : F32} {bits : Byte} {v w lo hi : ℚ}

theorem overflowCode_eq_zero (h : Placed x min max bits v lo hi) (hbits : bits.toNat = 1) (hv : v < hi) :
    overflowCode quantArith x min max bits = 0 :=
  if_pos ⟨hbits, (Fp.lt_eq_true h.value h.max_value).mpr hv⟩

theorem overflowCode_eq_max (h : Placed x min max bits v lo hi) (hx : ¬(bits.toNat = 1 ∧ v < hi)) :
    overflowCode quantArith x min max bits =
      Nat.max (lastFiniteCode quantArith x min max bits) (freeCode x min max bits) :=
  if_neg fun hlt => hx ⟨hlt.1, (Fp.lt_eq_true h.value h.max_value).mp hlt.2⟩

/-- The code of an overflowing quotient is a code. -/
theorem overflowCode_le (h : Placed x min max bits v lo hi) (hfits : ¬Fits bits lo v) :
    overflowCode quantArith x min max bits ≤ topCode bits := by
  by_cases hone : bits.toNat = 1 ∧ v < hi
  · rw [overflowCode_eq_zero h hone.1 hone.2]
    exact Nat.zero_le _
  · obtain ⟨z, u, hz, hu, hcode, -⟩ := h.lastFiniteCode_spec hfits
    rw [overflowCode_eq_max h hone, hcode]
    exact Nat.max_le.mpr ⟨hz.floor_quotient_le hu, freeCode_le x min max bits⟩

/-- It falls below no code that the formula gives to a smaller operand; with one bit that code is 0, for then
it is the span that overflows. -/
theorem floor_quotient_le_overflowCode (hx : Placed x min max bits v lo hi)
    (hy : Placed y min max bits w lo hi) (hv : Fits bits lo v) (hw : ¬Fits bits lo w) :
    ⌊quotient bits lo hi v⌋₊ ≤ overflowCode quantArith y min max bits := by
  by_cases hone : bits.toNat = 1 ∧ w < hi
  · have htop : topCode bits = 1 := by simp [topCode, hone.1]
    have hdiff : 2 ^ 128 - 2 ^ 103 ≤ w - lo := not_lt.mp fun hlt => hw ⟨hlt, by
      rw [htop, Nat.cast_one, mul_one]
      exact fl_lt (by rwa [abs_of_nonneg hy.diff_nonneg])⟩
    rw [quotient, if_neg (hdiff.trans hy.diff_le).not_gt, Nat.floor_zero]
    exact Nat.zero_le _
  · obtain ⟨z, u, hz, hu, hcode, hlast⟩ := hy.lastFiniteCode_spec hw
    rw [overflowCode_eq_max hy hone, hcode]
    exact (Nat.floor_le_floor (hx.quotient_mono hz (hlast x v hx hv) hu)).trans (Nat.le_max_left _ _)

theorem overflowCode_mono (hx : Placed x min max bits v lo hi) (hy : Placed y min max bits w lo hi)
    (hvw : v ≤ w) (hv : ¬Fits bits lo v) (hw : ¬Fits bits lo w) :
    overflowCode quantArith x min max bits ≤ overflowCode quantArith y min max bits := by
  by_cases hone : bits.toNat = 1 ∧ v < hi
  · rw [overflowCode_eq_zero hx hone.1 hone.2]
    exact Nat.zero_le _
  · obtain ⟨z, u, hz, hu, hcode, -⟩ := hx.lastFiniteCode_spec hv
    obtain ⟨z', u', hz', hu', hcode', hlast⟩ := hy.lastFiniteCode_spec hw
    rw [overflowCode_eq_max hx hone, overflowCode_eq_max hy fun h => hone ⟨h.1, hvw.trans_lt h.2⟩, hcode, hcode']
    exact max_le_max (Nat.floor_le_floor (hz.quotient_mono hz' (hlast z u hz hu) hu'))
      (freeCode_mono min max bits (units32_mono hx.value hy.value hvw))

/-! The codes as numbers. -/

theorem Placed.toNat_encodeCode (h : Placed x min max bits v lo hi) (hfits : Fits bits lo v) :
    (encodeCode quantArith x min max bits).toNat = ⌊quotient bits lo hi v⌋₊ := by
  have := h.floor_quotient_le hfits
  have := h.topCode_le
  rw [h.encodeCode_eq hfits, BitVec.toNat_ofNat, Nat.mod_eq_of_lt (by omega)]

theorem Placed.toNat_encodeCode_overflow (h : Placed x min max bits v lo hi) (hfits : ¬Fits bits lo v) :
    (encodeCode quantArith x min max bits).toNat = overflowCode quantArith x min max bits := by
  have := overflowCode_le h hfits
  have := h.topCode_le
  rw [h.encodeCode_eq_overflowCode hfits, BitVec.toNat_ofNat, Nat.mod_eq_of_lt (by omega)]

theorem Placed.toNat_encodeCode_le (h : Placed x min max bits v lo hi) :
    (encodeCode quantArith x min max bits).toNat ≤ topCode bits := by
  by_cases hfits : Fits bits lo v
  · exact (h.toNat_encodeCode hfits).trans_le (h.floor_quotient_le hfits)
  · exact (h.toNat_encodeCode_overflow hfits).trans_le (overflowCode_le h hfits)

theorem Placed.toNat_encodeCode_mono (hx : Placed x min max bits v lo hi) (hy : Placed y min max bits w lo hi)
    (hvw : v ≤ w) :
    (encodeCode quantArith x min max bits).toNat ≤ (encodeCode quantArith y min max bits).toNat := by
  by_cases hw : Fits bits lo w
  · have hv := hx.fits_of_le hvw hw
    rw [hx.toNat_encodeCode hv, hy.toNat_encodeCode hw]
    exact Nat.floor_le_floor (hx.quotient_mono hy hvw hw)
  · rw [hy.toNat_encodeCode_overflow hw]
    by_cases hv : Fits bits lo v
    · rw [hx.toNat_encodeCode hv]
      exact floor_quotient_le_overflowCode hx hy hv hw
    · rw [hx.toNat_encodeCode_overflow hv]
      exact overflowCode_mono hx hy hvw hv hw

/-- With one bit over a span that overflows, the code below the upper bound is 0. -/
theorem Placed.encodeCode_eq_zero (h : Placed x min max bits v lo hi) (hbits : bits.toNat = 1)
    (hspan : 2 ^ 128 - 2 ^ 103 ≤ hi - lo) (hv : v < hi) : encodeCode quantArith x min max bits = 0 := by
  by_cases hfits : Fits bits lo v
  · rw [h.encodeCode_eq hfits, quotient, if_neg hspan.not_gt, Nat.floor_zero]
    rfl
  · rw [h.encodeCode_eq_overflowCode hfits, overflowCode_eq_zero h hbits hv]
    rfl

theorem ClampsTo.lt_of_lt_max (h : Scale min max bits lo hi) (hx : ClampsTo x lo hi v)
    (hlt : (unpack32 x).lt (unpack32 max) = true) : v < hi := by
  rcases hx with ⟨a, ha, rfl⟩ | ⟨hx, -⟩ | ⟨-, rfl⟩
  · have := (Fp.lt_eq_true ha h.max_value).mp hlt
    split_ifs <;> linarith [h.lt]
  · rw [hx, (lt_inf_false h.max_value).2] at hlt
    cases hlt
  · exact h.lt

end

/-- Settles O32: the quotient stays below the largest code and one, and so does the free code. -/
theorem qEncodeCodeIsInRange : Obligations.QEncodeCodeIsInRange := by
  intro s x min max bits lo hi h1 h16 hmin hmax hlt hnan
  have h : Scale min max bits lo hi := ⟨hmin, hmax, hlt, h1, h16⟩
  obtain ⟨v, hv⟩ := exists_clampsTo hnan lo hi
  have hplaced := h.placed_clamp hv
  exact ⟨_, h.exec_qEncode hnan s, hplaced.toNat_encodeCode_le, fun hbits hspan hmaxlt =>
    hplaced.encodeCode_eq_zero hbits hspan (hv.lt_of_lt_max h hmaxlt)⟩

/-- Settles O34: the clamp keeps the order, each operation of the quotient does, and what overflows lies above
what does not. -/
theorem qEncodeIsMonotone : Obligations.QEncodeIsMonotone := by
  intro s x y min max bits lo hi h1 h16 hmin hmax hlt hx hy hxy
  have h : Scale min max bits lo hi := ⟨hmin, hmax, hlt, h1, h16⟩
  obtain ⟨v, hv⟩ := exists_clampsTo hx lo hi
  obtain ⟨w, hw⟩ := exists_clampsTo hy lo hi
  exact ⟨_, _, h.exec_qEncode hx s, h.exec_qEncode hy s,
    (h.placed_clamp hv).toNat_encodeCode_mono (h.placed_clamp hw) (hv.mono hlt hw hxy)⟩

end Sys2Proof.Machine

/-! Rule R144: the value of `Q_DECODE`, operation by operation, and the value of code 0. -/

namespace Sys2Proof.Machine

/-! Signs: none of the operations before the last gives a negative datum. -/

theorem round_false_eq_fin {n d : Nat} {a : ℚ} (h : (binary32.round false n d).value binary32 = some a) :
    ∃ m, binary32.round false n d = .fin false m := by
  unfold Format.round at h ⊢
  simp only at h ⊢
  split at h
  · cases h
  · next hover => exact ⟨_, if_neg hover⟩

theorem round_false_ne_fin_true (n d m : Nat) : binary32.round false n d ≠ .fin true m := by
  unfold Format.round
  simp only
  split <;> simp

/-- A number other than zero that is a whole number of units does not round to zero. -/
theorem round_one_ne_zero (neg s : Bool) {n : Nat} (hn : n ≠ 0) : binary32.round neg n 1 ≠ .fin s 0 := by
  have hpow : 2 ^ binary32.excess n 1 ≠ 0 := (Nat.two_pow_pos _).ne'
  have hq : roundHalfEven n (1 * 2 ^ binary32.excess n 1) ≠ 0 := by
    by_cases h : binary32.excess n 1 = 0
    · have hexact := roundHalfEven_mul n 1 one_pos
      rw [Nat.mul_one] at hexact
      rwa [h, pow_zero, Nat.mul_one, hexact]
    · have := two_pow_le_roundHalfEven_excess one_pos h
      omega
  unfold Format.round
  simp only
  split
  · exact nofun
  · rw [Ne, Fp.fin.injEq]
    exact fun h => Nat.mul_ne_zero hq hpow h.2

/-- A sum with a first operand of positive sign is not -0.0. -/
theorem add_ne_neg_zero (m : Nat) (y : Fp) : binary32.add (.fin false m) y ≠ .fin true 0 := by
  cases y with
  | nan => exact nofun
  | inf => exact nofun
  | fin t n =>
    simp only [Format.add]
    split_ifs with ht hnm hmn
    · exact round_false_ne_fin_true _ _ _
    · exact round_false_ne_fin_true _ _ _
    · cases t with
      | false => exact round_false_ne_fin_true _ _ _
      | true => exact round_one_ne_zero true true (by omega)
    · exact nofun

theorem eq_fin_false_of_pos {x : Fp} {a : ℚ} (hx : x.value binary32 = some a) (ha : 0 < a) :
    ∃ m, m ≠ 0 ∧ x = .fin false m := by
  obtain ⟨s, m, rfl, rfl⟩ := value_eq_some.mp hx
  cases s with
  | true =>
    have : (0 : ℚ) ≤ m / 2 ^ 149 := by positivity
    simp only [signed_true, Int.cast_neg, Int.cast_natCast, neg_div] at ha
    linarith
  | false =>
    refine ⟨m, ?_, rfl⟩
    rintro rfl
    simp at ha

theorem ofInt_eq_fin {k : Nat} (hk : k < 2 ^ 24) : ∃ m, binary32.ofInt k = .fin false m := by
  have hround : binary32.ofInt k = binary32.round false (k * 2 ^ 149) 1 := by
    simp only [Format.ofInt, binary32_unit, Int.natAbs_natCast, Int.natCast_nonneg, not_lt.mpr, decide_false]
  have hvalue := ofInt_value hk
  rw [hround] at hvalue ⊢
  exact round_false_eq_fin hvalue

theorem mul_fin_false {m n : Nat} {a : ℚ}
    (h : (binary32.mul (.fin false m) (.fin false n)).value binary32 = some a) :
    ∃ k, binary32.mul (.fin false m) (.fin false n) = .fin false k :=
  round_false_eq_fin h

theorem div_fin_false {m n : Nat} {a : ℚ} (hn : n ≠ 0)
    (h : (binary32.div (.fin false m) (.fin false n)).value binary32 = some a) :
    ∃ k, binary32.div (.fin false m) (.fin false n) = .fin false k := by
  rw [div_fin false false m hn] at h ⊢
  exact round_false_eq_fin h

/-! Infinities carry through. -/

theorem mul_inf_of_pos {x : Fp} {a : ℚ} (hx : x.value binary32 = some a) (ha : 0 < a) :
    binary32.mul x (.inf false) = .inf false := by
  obtain ⟨m, hm, rfl⟩ := eq_fin_false_of_pos hx ha
  simp [Format.mul, hm]

theorem inf_div_of_pos {x : Fp} {a : ℚ} (hx : x.value binary32 = some a) (ha : 0 < a) :
    binary32.div (.inf false) x = .inf false := by
  obtain ⟨m, -, rfl⟩ := eq_fin_false_of_pos hx ha
  rfl

theorem inf_add {x : Fp} {a : ℚ} (hx : x.value binary32 = some a) :
    binary32.add (.inf false) x = .inf false := by
  obtain ⟨s, m, rfl, -⟩ := value_eq_some.mp hx
  rfl

theorem pack32_inf_false (nanBits : F32) : pack32 nanBits (.inf false) = 0x7F800000 := rfl

/-! Numbers with patterns. -/

theorem isFloat_of_value32 {w : F32} {v : ℚ} (h : value32 w = some v) : binary32.IsFloat v := by
  have hw := exists_value_iff.mp ⟨v, h⟩
  rw [value32, unpack32_eq_magnitude hw, value_fin] at h
  obtain rfl := Option.some.inj h
  generalize w.toNat % 2 ^ 31 = c at hw ⊢
  unfold magnitude
  split_ifs
  · exact ⟨w.msb, 0, c % 2 ^ 23, by simp only [binary32_frac]; omega,
      by simp only [binary32_frac, binary32_infCode]; omega, by rw [pow_zero, Nat.mul_one]⟩
  · exact ⟨w.msb, c / 2 ^ 23 - 1, 2 ^ 23 + c % 2 ^ 23, by simp only [binary32_frac]; omega,
      by simp only [binary32_frac, binary32_infCode]; omega, rfl⟩

theorem Fp.IsRounding.value32_pack32 {x : Fp} {v : ℚ} (h : x.IsRounding v) (hv : |v| < 2 ^ 128 - 2 ^ 103)
    (nanBits : F32) : value32 (pack32 nanBits x) = some (fl v) := by
  obtain ⟨_, -, hpack⟩ := h.exists_value hv
  rw [value32, hpack, h.value_eq_fl hv]

/-- The pattern of a sum with a first operand of positive sign is not that of -0.0. -/
theorem pack32_add_ne_neg_zero {m : Nat} {y : Fp} {v : ℚ} (h : (binary32.add (.fin false m) y).IsRounding v)
    (hv : |v| < 2 ^ 128 - 2 ^ 103) (nanBits : F32) :
    pack32 nanBits (binary32.add (.fin false m) y) ≠ 0x80000000 := by
  intro heq
  obtain ⟨_, -, hpack⟩ := h.exists_value hv
  have hzero : unpack32 0x80000000 = .fin true 0 := by decide
  exact add_ne_neg_zero m y (by rw [← hpack nanBits, heq, hzero])

/-! What `Q_DECODE` answers. -/

theorem decodeBits_eq (u : U32) (min max : F32) (bits : Byte) : decodeBits quantArith u min max bits =
    pack32 (nanPattern (Config.freeNan u min max bits)) (dequantum quantArith u min max bits) := rfl

section

variable {min max : F32} {bits : Byte} {lo hi : ℚ} {u : U32}

theorem Scale.exec_qDecode (h : Scale min max bits lo hi) (hu : u.toNat ≤ topCode bits) (s : State) :
    exec (.qDecode u min max bits) s = .next (s.answering (.value (decodeBits quantArith u min max bits))) := by
  rw [Machine.exec_qDecode, quantDecode, if_neg h.not_badBits, if_neg hu.not_gt, if_neg h.not_badRange,
    finish_ok]

theorem Scale.code_value (h : Scale min max bits lo hi) (hu : u.toNat ≤ topCode bits) :
    (binary32.ofInt u.toNat).value binary32 = some (u.toNat : ℚ) :=
  ofInt_value (hu.trans_lt (h.topCode_le.trans_lt (by norm_num)))

theorem Scale.topCode_pos (h : Scale min max bits lo hi) : (0 : ℚ) < topCode bits :=
  zero_lt_one.trans_le h.one_le_topCode

/-- An infinite product makes the value +inf. -/
theorem Scale.decodeBits_eq_inf (h : Scale min max bits lo hi)
    (hmul : binary32.mul (binary32.ofInt u.toNat) (binary32.sub (unpack32 max) (unpack32 min)) = .inf false) :
    decodeBits quantArith u min max bits = 0x7F800000 := by
  rw [decodeBits_eq, dequantum_eq, hmul, inf_div_of_pos h.topCode_value h.topCode_pos, inf_add h.min_value,
    pack32_inf_false]

/-- The product where the span does not overflow. -/
theorem Scale.product_isRounding (h : Scale min max bits lo hi) (hu : u.toNat ≤ topCode bits)
    (hspan : hi - lo < 2 ^ 128 - 2 ^ 103) :
    (binary32.mul (binary32.ofInt u.toNat) (binary32.sub (unpack32 max) (unpack32 min))).IsRounding
      (u.toNat * fl (hi - lo)) :=
  mul_isRounding (h.code_value hu) (h.span_value hspan)

theorem Scale.fl_span_pos (h : Scale min max bits lo hi) (hspan : hi - lo < 2 ^ 128 - 2 ^ 103) :
    0 < fl (hi - lo) :=
  lt_of_lt_of_le (by positivity) (h.unit_le_fl_span hspan)

theorem Scale.product_nonneg (h : Scale min max bits lo hi) (hspan : hi - lo < 2 ^ 128 - 2 ^ 103) :
    0 ≤ u.toNat * fl (hi - lo) :=
  mul_nonneg (Nat.cast_nonneg _) (h.fl_span_pos hspan).le

/-- The quotient of a product that does not overflow does not either, and is not negative. -/
theorem Scale.quotient_spec (h : Scale min max bits lo hi) (hu : u.toNat ≤ topCode bits)
    (hspan : hi - lo < 2 ^ 128 - 2 ^ 103) (hprod : u.toNat * fl (hi - lo) < 2 ^ 128 - 2 ^ 103) :
    |fl (u.toNat * fl (hi - lo)) / topCode bits| < 2 ^ 128 - 2 ^ 103 ∧
      ∃ m, binary32.div (binary32.mul (binary32.ofInt u.toNat) (binary32.sub (unpack32 max) (unpack32 min)))
          (binary32.ofInt (topCode bits)) = .fin false m ∧
        (Fp.fin false m).value binary32 = some (fl (fl (u.toNat * fl (hi - lo)) / topCode bits)) := by
  have habs : |u.toNat * fl (hi - lo)| < 2 ^ 128 - 2 ^ 103 := by rwa [abs_of_nonneg (h.product_nonneg hspan)]
  have hp := (h.product_isRounding hu hspan).value_eq_fl habs
  have hp0 := fl_nonneg (h.product_nonneg hspan) hprod
  have hlt : |fl (u.toNat * fl (hi - lo)) / topCode bits| < 2 ^ 128 - 2 ^ 103 := by
    rw [abs_of_nonneg (div_nonneg hp0 h.topCode_pos.le)]
    exact (div_le_self hp0 h.one_le_topCode).trans_lt (fl_lt habs)
  have hq := (div_isRounding hp h.topCode_value h.topCode_pos.ne').value_eq_fl hlt
  obtain ⟨k, hk⟩ := ofInt_eq_fin (hu.trans_lt (h.topCode_le.trans_lt (by norm_num)))
  obtain ⟨w, -, hw⟩ := eq_fin_false_of_pos (h.span_value hspan) (h.fl_span_pos hspan)
  obtain ⟨t, ht0, ht⟩ := eq_fin_false_of_pos h.topCode_value h.topCode_pos
  rw [hk, hw] at hp hq ⊢
  obtain ⟨p, hpm⟩ := mul_fin_false hp
  rw [hpm, ht] at hq ⊢
  obtain ⟨m, hm⟩ := div_fin_false ht0 hq
  exact ⟨hlt, m, hm, hm ▸ hq⟩

/-- The sum where nothing before it overflows. -/
theorem Scale.sum_spec (h : Scale min max bits lo hi) (hu : u.toNat ≤ topCode bits)
    (hspan : hi - lo < 2 ^ 128 - 2 ^ 103) (hprod : u.toNat * fl (hi - lo) < 2 ^ 128 - 2 ^ 103) :
    ∃ m, decodeBits quantArith u min max bits =
        pack32 (nanPattern (Config.freeNan u min max bits)) (binary32.add (.fin false m) (unpack32 min)) ∧
      (binary32.add (.fin false m) (unpack32 min)).IsRounding
        (fl (fl (u.toNat * fl (hi - lo)) / topCode bits) + lo) := by
  obtain ⟨-, m, hm, hq⟩ := h.quotient_spec hu hspan hprod
  exact ⟨m, by rw [decodeBits_eq, dequantum_eq, hm], add_isRounding hq h.min_value⟩

/-- Neither of the sum's operands is as small as the limit below. -/
theorem Scale.abs_sum_lt (h : Scale min max bits lo hi) (hu : u.toNat ≤ topCode bits)
    (hspan : hi - lo < 2 ^ 128 - 2 ^ 103) (hprod : u.toNat * fl (hi - lo) < 2 ^ 128 - 2 ^ 103)
    (hsum : fl (fl (u.toNat * fl (hi - lo)) / topCode bits) + lo < 2 ^ 128 - 2 ^ 103) :
    |fl (fl (u.toNat * fl (hi - lo)) / topCode bits) + lo| < 2 ^ 128 - 2 ^ 103 := by
  have hlo := (abs_lt.mp (abs_lt_of_isFloat (isFloat_of_value32 h.min_value))).1
  have hp := fl_nonneg (h.product_nonneg hspan) hprod
  have hq := fl_nonneg (div_nonneg hp h.topCode_pos.le) (lt_of_abs_lt (h.quotient_spec hu hspan hprod).1)
  exact abs_lt.mpr ⟨by linarith, hsum⟩

/-- The value where nothing overflows. -/
theorem Scale.value32_decodeBits (h : Scale min max bits lo hi) (hu : u.toNat ≤ topCode bits)
    (hspan : hi - lo < 2 ^ 128 - 2 ^ 103) (hprod : u.toNat * fl (hi - lo) < 2 ^ 128 - 2 ^ 103)
    (hsum : fl (fl (u.toNat * fl (hi - lo)) / topCode bits) + lo < 2 ^ 128 - 2 ^ 103) :
    value32 (decodeBits quantArith u min max bits) =
      some (fl (fl (fl (u.toNat * fl (hi - lo)) / topCode bits) + lo)) := by
  obtain ⟨m, hbits, hround⟩ := h.sum_spec hu hspan hprod
  rw [hbits, hround.value32_pack32 (h.abs_sum_lt hu hspan hprod hsum)]

end

/-- Settles O36: an overflow at any operation gives +inf, and otherwise each operation rounds the exact result;
the quotient's sign is positive, so the sum is not -0.0. -/
theorem qDecodeFollowsTheFormula : Obligations.QDecodeFollowsTheFormula := by
  intro s u min max bits lo hi h1 h16 hu hmin hmax hlt
  have h : Scale min max bits lo hi := ⟨hmin, hmax, hlt, h1, h16⟩
  rw [← h.cast_topCode]
  refine ⟨_, h.exec_qDecode hu s, fun hspan hu0 => ?_, fun hspan => ⟨fl (hi - lo), fl_nearest ?_, fun hprod => ?_,
    fun hprod => ?_⟩⟩
  · have hpos : (0 : ℚ) < u.toNat := by
      exact_mod_cast Nat.pos_of_ne_zero fun h0 => hu0 (BitVec.eq_of_toNat_eq h0)
    refine h.decodeBits_eq_inf ?_
    rw [h.span_eq_inf hspan]
    exact mul_inf_of_pos (h.code_value hu) hpos
  · rwa [abs_of_nonneg h.span_nonneg]
  · refine h.decodeBits_eq_inf ?_
    rw [(h.product_isRounding hu hspan).eq_inf (hprod.trans (le_abs_self _)),
      decide_eq_false (h.product_nonneg hspan).not_gt]
  · obtain ⟨m, hbits, hround⟩ := h.sum_spec hu hspan hprod
    refine ⟨fl (u.toNat * fl (hi - lo)), _, fl_nearest ?_, fl_nearest (h.quotient_spec hu hspan hprod).1,
      fun hsum => ?_, fun hsum => ?_⟩
    · rwa [abs_of_nonneg (h.product_nonneg hspan)]
    · rw [hbits, hround.eq_inf (hsum.trans (le_abs_self _)), decide_eq_false, pack32_inf_false]
      exact not_lt.mpr (le_trans (by norm_num) hsum)
    · have hv := h.abs_sum_lt hu hspan hprod hsum
      refine ⟨_, fl_nearest hv, h.value32_decodeBits hu hspan hprod hsum, ?_⟩
      rw [hbits]
      exact pack32_add_ne_neg_zero hround hv _

end Sys2Proof.Machine

/-! Rule R144's corner case: code 0 gives the pattern of `min` back, and a NaN where the span overflows. -/

namespace Sys2Proof.Machine

/-! A finite pattern is the one of its datum. -/

theorem excess_magnitude {c : Nat} (h : c / 2 ^ 23 ≠ 0) : binary32.excess (magnitude c) 1 = c / 2 ^ 23 - 1 := by
  have hfrac := Nat.mod_lt c (Nat.two_pow_pos 23)
  rw [magnitude, if_neg h]
  generalize c / 2 ^ 23 - 1 = t
  refine le_antisymm (excess_le one_pos ?_) ?_
  · rw [Nat.mul_one, pow_add]
    exact Nat.mul_lt_mul_of_pos_right (by omega) (Nat.two_pow_pos t)
  · by_contra! hlt
    have hupper := lt_two_pow_excess ((2 ^ 23 + c % 2 ^ 23) * 2 ^ t) one_pos
    generalize binary32.excess ((2 ^ 23 + c % 2 ^ 23) * 2 ^ t) 1 = e at hlt hupper
    have hpow : 2 ^ (e + 1) ≤ 2 ^ t := Nat.pow_le_pow_right two_pos hlt
    have hlower : 2 ^ 23 * 2 ^ t ≤ (2 ^ 23 + c % 2 ^ 23) * 2 ^ t := Nat.mul_le_mul_right _ (Nat.le_add_right _ _)
    rw [pow_succ] at hpow
    omega

theorem code_magnitude (c : Nat) :
    binary32.excess (magnitude c) 1 * 2 ^ 23 + magnitude c / 2 ^ binary32.excess (magnitude c) 1 = c := by
  by_cases h : c / 2 ^ 23 = 0
  · have hmag : magnitude c = c % 2 ^ 23 := if_pos h
    have hexcess : binary32.excess (magnitude c) 1 = 0 :=
      Nat.le_zero.mp (excess_le one_pos (by rw [hmag]; omega))
    rw [hexcess, pow_zero, Nat.div_one, hmag]
    omega
  · rw [excess_magnitude h, magnitude, if_neg h, Nat.mul_div_cancel _ (Nat.two_pow_pos _)]
    omega

theorem pack32_unpack32 {w : F32} (h : w.toNat % 2 ^ 31 < 255 * 2 ^ 23) (nanBits : F32) :
    pack32 nanBits (unpack32 w) = w := by
  have hw := w.isLt
  rw [unpack32_eq_magnitude h]
  simp only [pack32]
  rw [Nat.add_assoc, code_magnitude]
  apply BitVec.eq_of_toNat_eq
  rw [BitVec.toNat_ofNat, BitVec.msb_eq_decide, signBit]
  simp only [decide_eq_true_eq]
  split <;> omega

/-! Zero plus a number. -/

/-- A number other than zero has one datum. -/
theorem eq_fin_of_value_eq {x : Fp} {s : Bool} {n : Nat} (hn : n ≠ 0)
    (h : x.value binary32 = (Fp.fin s n).value binary32) : x = .fin s n := by
  rw [value_fin] at h
  obtain ⟨t, m, rfl, hm⟩ := value_eq_some.mp h
  rw [binary32_unit, div_left_inj' (by positivity), Int.cast_inj] at hm
  rw [Fp.fin.injEq]
  cases s <;> cases t
  all_goals
    simp only [signed_false, signed_true, reduceCtorEq, true_and, false_and] at hm ⊢
    omega

/-- Zero plus a number of the format is that number, and +0.0 where it is a zero. -/
theorem zero_add_fin {s : Bool} {n : Nat} {v : ℚ} (hv : (Fp.fin s n).value binary32 = some v)
    (hfloat : binary32.IsFloat v) :
    binary32.add (.fin false 0) (.fin s n) = if n = 0 then .fin false 0 else .fin s n := by
  split_ifs with hn
  · subst hn
    cases s <;> simp [Format.add, round_zero]
  · have hzero : (Fp.fin false 0).value binary32 = some 0 := by simp
    have hround := add_isRounding hzero hv
    rw [zero_add] at hround
    refine eq_fin_of_value_eq hn ?_
    rw [hround.value_eq_fl (abs_lt_of_isFloat hfloat), fl_eq_self hfloat, hv]

theorem pack32_zero_add_unpack32 {w : F32} {v : ℚ} (hv : value32 w = some v) (nanBits : F32) :
    pack32 nanBits (binary32.add (.fin false 0) (unpack32 w)) = if w = 0x80000000 then 0x00000000 else w := by
  have hw := exists_value_iff.mp ⟨v, hv⟩
  have hfloat := isFloat_of_value32 hv
  have hpack := pack32_unpack32 hw nanBits
  rw [value32, unpack32_eq_magnitude hw] at hv
  rw [unpack32_eq_magnitude hw] at hpack ⊢
  rw [zero_add_fin hv hfloat]
  split_ifs with hn hneg hneg
  · rfl
  · rw [← hpack, hn] at hneg ⊢
    cases hs : w.msb with
    | false => rfl
    | true =>
      rw [hs] at hneg
      exact absurd rfl hneg
  · subst hneg
    exact absurd (by decide) hn
  · exact hpack

/-! The patterns taken where the formula is a NaN. -/

theorem nanPattern_spec (w : F32) :
    (nanPattern w).extractLsb' 23 8 = 0xFF#8 ∧ (nanPattern w).extractLsb' 0 23 ≠ 0#23 := by
  unfold nanPattern
  split
  · next h =>
    rw [BitVec.extractLsb'_or, BitVec.extractLsb'_or, h]
    exact ⟨BitVec.or_allOnes, by decide⟩
  · next h =>
    rw [BitVec.extractLsb'_or, BitVec.extractLsb'_or]
    refine ⟨BitVec.or_allOnes, ?_⟩
    have hzero : (0x7F800000 : F32).extractLsb' 0 23 = 0#23 := by decide
    rwa [hzero, BitVec.or_zero]

theorem ofInt_zero : binary32.ofInt (0 : Nat) = .fin false 0 := by decide

section

variable {min max : F32} {bits : Byte} {lo hi : ℚ}

theorem Scale.decodeBits_zero (h : Scale min max bits lo hi) (hspan : hi - lo < 2 ^ 128 - 2 ^ 103) :
    decodeBits quantArith 0 min max bits = if min = 0x80000000 then 0x00000000 else min := by
  have hprod : ((0 : U32).toNat : ℚ) * fl (hi - lo) = 0 := by simp
  obtain ⟨-, m, hm, hvalue⟩ := h.quotient_spec (u := 0) (Nat.zero_le _) hspan (by rw [hprod]; norm_num)
  rw [hprod, fl_zero, zero_div, fl_zero] at hvalue
  obtain rfl : m = 0 := by simpa using hvalue
  rw [decodeBits_eq, dequantum_eq, hm, pack32_zero_add_unpack32 h.min_value]

theorem Scale.decodeBits_zero_eq_nanPattern (h : Scale min max bits lo hi) (hspan : 2 ^ 128 - 2 ^ 103 ≤ hi - lo) :
    decodeBits quantArith 0 min max bits = nanPattern (Config.freeNan 0 min max bits) := by
  have hcode : binary32.ofInt (0 : U32).toNat = .fin false 0 := ofInt_zero
  rw [decodeBits_eq, dequantum_eq, h.span_eq_inf hspan, hcode]
  rfl

end

/-- Settles O37: zero times a finite span is zero, and zero plus `min` is `min`; zero times infinity is a NaN. -/
theorem qDecodeOfZeroIsMin : Obligations.QDecodeOfZeroIsMin := by
  intro s min max bits lo hi h1 h16 hmin hmax hlt
  have h : Scale min max bits lo hi := ⟨hmin, hmax, hlt, h1, h16⟩
  have hexec := h.exec_qDecode (u := 0) (Nat.zero_le _) s
  refine ⟨fun hspan => ?_, fun hspan => ⟨_, hexec, ?_⟩⟩
  · rw [hexec, h.decodeBits_zero hspan]
  · rw [h.decodeBits_zero_eq_nanPattern hspan]
    exact nanPattern_spec _

end Sys2Proof.Machine

/-! Rule R147's error bound over the documented domains. Their spans are numbers of the format, so the span adds
no rounding; and the quotient of `Q_ENCODE` is below `2^16`, so its rounding costs `2^-9` of a step at most. With
that each direction stays within a hundredth of a step, and the truncation adds less than one step. -/

namespace Sys2Proof.Machine

theorem Within.fl {k M r v : ℚ} (h : Within k M r v) (hk : k ≤ 5) (hM : 1 ≤ M) (hM' : M ≤ 2 ^ 30) :
    Within (k + 101 / 100) M (fl r) v := by
  have hr : |r| < 2 ^ 128 - 2 ^ 103 := (h.abs_lt (hk.trans (by norm_num)) hM hM').trans (by norm_num)
  have hrounds : (roundQ r).Rounds r :=
    ⟨_, (roundQ_isRounding r).value_eq_fl hr, (roundQ_isRounding r).value32_pack32 hr, fl_error hr⟩
  obtain ⟨y, hy, -, hwithin⟩ := hrounds.within h (hk.trans (by norm_num)) hM
  obtain rfl : Machine.fl r = y := Option.some.inj (((roundQ_isRounding r).value_eq_fl hr).symm.trans hy)
  exact hwithin

section

variable {d : Config.Domain} {lo hi : ℚ}

/-- The bounds of a documented domain: the span needs no rounding, and a bound is at most 32768 steps from zero. -/
structure Balanced (d : Config.Domain) (lo hi : ℚ) : Prop extends Bounded d lo hi where
  span_value : (binary32.sub (unpack32 d.max) (unpack32 d.min)).value binary32 = some (hi - lo)
  neg_lo_le : -lo * topCode d.bits ≤ 32768 * (hi - lo)
  hi_le : hi * topCode d.bits ≤ 32768 * (hi - lo)

theorem domains_balanced {d : Config.Domain} (hd : d ∈ domains) : ∃ lo hi, Balanced d lo hi := by
  simp only [domains, List.mem_cons, List.not_mem_nil, or_false] at hd
  rcases hd with rfl | rfl | rfl | rfl | rfl | rfl | rfl <;>
    exact ⟨_, _, ⟨rfl, rfl, by decide +kernel, by decide +kernel, by decide +kernel, by decide +kernel,
      by decide, by decide⟩, by decide +kernel, by decide +kernel, by decide +kernel⟩

namespace Balanced

theorem scale (h : Balanced d lo hi) : Scale d.min d.max d.bits lo hi :=
  ⟨h.min_value, h.max_value, by linarith [h.one_le_span], h.one_le_bits, h.bits_le⟩

theorem span_lt (h : Balanced d lo hi) : hi - lo < 2 ^ 128 - 2 ^ 103 :=
  h.span_le.trans_lt (by norm_num)

theorem fl_span (h : Balanced d lo hi) : fl (hi - lo) = hi - lo :=
  Option.some.inj ((h.scale.span_value h.span_lt).symm.trans h.span_value)

theorem topCode_pos (h : Balanced d lo hi) : (0 : ℚ) < topCode d.bits :=
  h.scale.topCode_pos

/-! From the operand to the code. -/

section

variable {x : F32} {a : ℚ}

theorem placed (h : Balanced d lo hi) (hx : value32 x = some a) (hlo : lo ≤ a) (hhi : a ≤ hi) :
    Placed x d.min d.max d.bits a lo hi :=
  ⟨h.scale, hx, hlo, hhi⟩

theorem scaled_within (h : Balanced d lo hi) (hlo : lo ≤ a) (hhi : a ≤ hi) :
    Within (101 / 100) (topCode d.bits * (hi - lo)) (topCode d.bits * fl (a - lo)) (topCode d.bits * (a - lo)) := by
  have hdiff : Within 0 (hi - lo) (a - lo) (a - lo) := .refl (by rw [abs_of_nonneg (by linarith)]; linarith)
  have hfl := hdiff.fl (by norm_num) h.one_le_span (h.span_le.trans (by norm_num))
  rw [zero_add] at hfl
  exact hfl.const_mul h.topCode_pos.le le_rfl

theorem fits (h : Balanced d lo hi) (hlo : lo ≤ a) (hhi : a ≤ hi) : Fits d.bits lo a := by
  refine ⟨by linarith [h.span_lt], ?_⟩
  rw [mul_comm]
  exact (lt_of_abs_lt ((h.scaled_within hlo hhi).abs_lt (by norm_num) h.one_le_scale_mul_span
    h.scale_mul_span_le)).trans (by norm_num)

/-- The quotient is the operand's place on the scale to within a hundredth of a step. -/
theorem quotient_near (h : Balanced d lo hi) (hlo : lo ≤ a) (hhi : a ≤ hi) :
    |quotient d.bits lo hi a - (a - lo) / stepSize d lo hi| ≤ 1 / 100 := by
  have hone := h.one_le_span
  have hS := h.scale_le
  have hscaled := (h.scaled_within hlo hhi).fl (by norm_num) h.one_le_scale_mul_span h.scale_mul_span_le
  rw [mul_comm (topCode d.bits : ℚ) (hi - lo), mul_comm _ (Machine.fl (a - lo))] at hscaled
  have hplace : topCode d.bits * (a - lo) / (hi - lo) = (a - lo) / stepSize d lo hi := by
    rw [stepSize]
    field_simp
  have hratio := hscaled.div_const (by linarith)
  rw [hplace] at hratio
  have herr := hratio.error
  have hsize := hratio.size
  rw [quotient, if_pos h.span_lt, h.fl_span]
  generalize Machine.fl (Machine.fl (a - lo) * topCode d.bits) / (hi - lo) = g at herr ⊢
  have hg : |g| < 2 ^ 16 := by
    have := abs_sub_abs_le_abs_sub g ((a - lo) / stepSize d lo hi)
    linarith
  have hfl := (roundQ_isRounding g).error_of_lt
    ((roundQ_isRounding g).value_eq_fl (hg.trans (by norm_num))) hg
  linarith [abs_sub_le (Machine.fl g) g ((a - lo) / stepSize d lo hi)]

end

/-! From the code to the value. -/

section

variable {u : U32}

theorem place_mem (h : Balanced d lo hi) (hu : u.toNat ≤ topCode d.bits) :
    0 ≤ u.toNat * stepSize d lo hi ∧ u.toNat * stepSize d lo hi ≤ hi - lo := by
  have huS : (u.toNat : ℚ) ≤ topCode d.bits := by exact_mod_cast hu
  have hpos := h.stepSize_pos
  exact ⟨by positivity, h.span_eq ▸ mul_le_mul_of_nonneg_right huS hpos.le⟩

theorem product_within (h : Balanced d lo hi) (hu : u.toNat ≤ topCode d.bits) :
    Within 0 (topCode d.bits * (hi - lo)) (u.toNat * fl (hi - lo)) (u.toNat * (hi - lo)) := by
  have huS : (u.toNat : ℚ) ≤ topCode d.bits := by exact_mod_cast hu
  have hspan : Within 0 (hi - lo) (hi - lo) (hi - lo) := .refl (abs_of_nonneg h.scale.span_nonneg).le
  rw [h.fl_span]
  exact hspan.const_mul (Nat.cast_nonneg _) huS

theorem product_lt (h : Balanced d lo hi) (hu : u.toNat ≤ topCode d.bits) :
    u.toNat * fl (hi - lo) < 2 ^ 128 - 2 ^ 103 :=
  (lt_of_abs_lt ((h.product_within hu).abs_lt (by norm_num) h.one_le_scale_mul_span
    h.scale_mul_span_le)).trans (by norm_num)

theorem quotient_within (h : Balanced d lo hi) (hu : u.toNat ≤ topCode d.bits) :
    Within (202 / 100) (hi - lo) (fl (fl (u.toNat * fl (hi - lo)) / topCode d.bits)) (u.toNat * stepSize d lo hi) := by
  have hprod := (h.product_within hu).fl (by norm_num) h.one_le_scale_mul_span h.scale_mul_span_le
  have hquot := (hprod.div_const h.topCode_pos).fl (by norm_num) h.one_le_span (h.span_le.trans (by norm_num))
  rw [mul_div_assoc] at hquot
  exact (by norm_num : (0 : ℚ) + 101 / 100 + 101 / 100 = 202 / 100) ▸ hquot

/-- The last sum is at most 32768 steps in size, but for the error it carries. -/
theorem abs_sum_le (h : Balanced d lo hi) (hu : u.toNat ≤ topCode d.bits) :
    |fl (fl (u.toNat * fl (hi - lo)) / topCode d.bits) + lo| ≤
      32768 * stepSize d lo hi + 202 / 100 * ((hi - lo) / 2 ^ 24) := by
  obtain ⟨h0, hle⟩ := h.place_mem hu
  obtain ⟨hlow, hhigh⟩ := abs_le.mp (h.quotient_within hu).error
  have hneg : -lo ≤ 32768 * stepSize d lo hi := by
    rw [stepSize, ← mul_div_assoc, le_div_iff₀ h.topCode_pos]
    exact h.neg_lo_le
  have hpos : hi ≤ 32768 * stepSize d lo hi := by
    rw [stepSize, ← mul_div_assoc, le_div_iff₀ h.topCode_pos]
    exact h.hi_le
  rw [abs_le]
  constructor <;> linarith

theorem sum_lt (h : Balanced d lo hi) (hu : u.toNat ≤ topCode d.bits) :
    fl (fl (u.toNat * fl (hi - lo)) / topCode d.bits) + lo < 2 ^ 128 - 2 ^ 103 := by
  have hspan := h.span_le
  have hstep : stepSize d lo hi ≤ hi - lo := div_le_self h.scale.span_nonneg h.one_le_scale
  refine lt_of_le_of_lt ((le_abs_self _).trans (h.abs_sum_le hu)) ?_
  norm_num
  linarith

/-- The value is the code's place on the scale to within a hundredth of a step. -/
theorem decodeBits_near (h : Balanced d lo hi) (hu : u.toNat ≤ topCode d.bits) :
    ∃ b, value32 (decodeBits quantArith u d.min d.max d.bits) = some b ∧
      |b - (lo + u.toNat * stepSize d lo hi)| ≤ stepSize d lo hi / 100 := by
  refine ⟨_, h.scale.value32_decodeBits hu h.span_lt (h.product_lt hu) (h.sum_lt hu), ?_⟩
  have habs := h.scale.abs_sum_lt hu h.span_lt (h.product_lt hu) (h.sum_lt hu)
  have hfl := fl_error habs
  have hsum := h.abs_sum_le hu
  have herr := (h.quotient_within hu).error
  have hspan := h.span_eq
  have hone := h.one_le_span
  have hS : (topCode d.bits : ℚ) * stepSize d lo hi ≤ 65535 * stepSize d lo hi :=
    mul_le_mul_of_nonneg_right h.scale_le h.stepSize_pos.le
  generalize Machine.fl (Machine.fl (u.toNat * Machine.fl (hi - lo)) / topCode d.bits) = q at hfl hsum herr ⊢
  rw [← add_sub_add_left_eq_sub q _ lo, add_comm lo q] at herr
  linarith [abs_sub_le (Machine.fl (q + lo)) (q + lo) (lo + u.toNat * stepSize d lo hi)]

end

end Balanced

end

/-- Settles O40: each direction is within a hundredth of a step, and the truncation within one step. -/
theorem quantizedValueIsNear : Obligations.QuantizedValueIsNear := by
  intro s d x lo hi a hd hmin hmax hx hlo hhi
  obtain ⟨lo', hi', h⟩ := domains_balanced hd
  obtain rfl : lo' = lo := Option.some.inj (h.min_value.symm.trans hmin)
  obtain rfl : hi' = hi := Option.some.inj (h.max_value.symm.trans hmax)
  have hplaced := h.placed hx hlo hhi
  have hfits := h.fits hlo hhi
  have hcode := hplaced.encodeCode_eq hfits
  have hle := hplaced.floor_quotient_le hfits
  have hnat := h.toNat_code hle
  obtain ⟨b, hb, hbnear⟩ := h.decodeBits_near (u := encodeCode quantArith x d.min d.max d.bits)
    (by rwa [hcode, hnat])
  refine ⟨_, _, b, by rw [exec_qEncode, h.quantEncode_eq hx hlo hhi, finish_ok],
    h.scale.exec_qDecode (by rwa [hcode, hnat]) s, hb, ?_⟩
  rw [hcode, hnat] at hbnear
  have hfloor := Nat.floor_le (hplaced.quotient_mem hfits).1
  have hfloor' := Nat.lt_floor_add_one (quotient d.bits lo' hi' a)
  obtain ⟨hglow, hghigh⟩ := abs_le.mp (h.quotient_near hlo hhi)
  have hpos := h.stepSize_pos
  have hplace : (a - lo') / stepSize d lo' hi' * stepSize d lo' hi' = a - lo' := div_mul_cancel₀ _ hpos.ne'
  rw [← h.scale.cast_topCode, ← stepSize]
  generalize (a - lo') / stepSize d lo' hi' = t at hglow hghigh hplace
  generalize (⌊quotient d.bits lo' hi' a⌋₊ : ℚ) = n at hbnear hfloor hfloor'
  have hdist : |(n - t) * stepSize d lo' hi'| ≤ 101 / 100 * stepSize d lo' hi' := by
    rw [abs_mul, abs_of_pos hpos]
    refine mul_le_mul_of_nonneg_right (abs_le.mpr ⟨?_, ?_⟩) hpos.le <;> linarith
  have hsplit : b - a = (b - (lo' + n * stepSize d lo' hi')) + (n - t) * stepSize d lo' hi' := by
    rw [sub_mul, hplace]
    ring
  rw [hsplit]
  linarith [abs_add_le (b - (lo' + n * stepSize d lo' hi')) ((n - t) * stepSize d lo' hi')]

end Sys2Proof.Machine
